-- ==== Sys2Proof/Word.lean ====
section
/-! DEFINITION. The units of data of the protocol engine: the byte (spec/00_scope.md R9), four header bytes or four
checksum digits (R61, R91), and the six status bytes (spec/30_encoding.md R76). -/

namespace Sys2Proof

/-- A byte, bit 0 the least significant (R9). -/
abbrev Byte := BitVec 8

/-- Four bytes in wire order: the frame header, or the four checksum digits. -/
structure Quad where
  b0 : Byte
  b1 : Byte
  b2 : Byte
  b3 : Byte
  deriving DecidableEq, Repr

/-- The six bytes of a status block, `byte[0]` first (R76). -/
structure DeviceStatus where
  b0 : Byte
  b1 : Byte
  b2 : Byte
  b3 : Byte
  b4 : Byte
  b5 : Byte
  deriving DecidableEq, Repr

/-- Four zero bytes, for registers whose reset value the spec leaves unspecified (log 5). -/
def Quad.zero : Quad := ⟨0, 0, 0, 0⟩

/-- Six zero bytes, for registers whose reset value the spec leaves unspecified (log 5). -/
def DeviceStatus.zero : DeviceStatus := ⟨0, 0, 0, 0, 0, 0⟩

end Sys2Proof
end

