-- ==== Sys2Proof/Config.lean ====
section
/-! DEFINITION. The constants the source fixes (spec/00_scope.md R7), the types of the configuration registers (R8,
spec/10_state.md R24) and the free values the spec leaves open (spec/93_implementation_defined.md I1, I10, I13). -/

namespace Sys2Proof.Config

/-- START, the start marker (R7). -/
def start : Byte := 0x01#8
/-- BUSY (R7). -/
def busy : Byte := 0x16#8
/-- NAK (R7). -/
def nak : Byte := 0x15#8
/-- STMARK, the status marker (R7). -/
def stmark : Byte := 0x04#8
/-- PTERM, the payload terminator (R7). -/
def pterm : Byte := 0x05#8
/-- FTERM, the frame terminator (R7). -/
def fterm : Byte := 0x03#8
/-- ESC, the escape marker (R7). -/
def esc : Byte := 0x10#8
/-- ESCOFF (R7). -/
def escOff : Byte := 64#8
/-- ESCLIM (R7). -/
def escLim : Nat := 32
/-- LENBASE (R7). -/
def lenBase : Nat := 36
/-- The status marker and block that the length byte of a device frame counts as well: 1 + STLEN (R7, R63). -/
def statusPart : Nat := 7
/-- BCCSEED (R7). -/
def bccSeed : Nat := 4
/-- MIDMIN (R7). -/
def midMin : Byte := 32#8
/-- MIDMAX (R7). -/
def midMax : Byte := 127#8
/-- BUFSZ, the size of each scratch buffer (R7, R27). -/
def bufSz : Nat := 1024
/-- The default of PAYLOAD_MAX, the largest length payload: 255 - 36 (R8, R63). -/
def payloadMax : Nat := 219

/-- What `cov(st)` adds for a device frame (spec/40_checksum.md R94). -/
inductive Coverage where
  | block
  | none
  | markerAndBlock
  deriving DecidableEq, Repr

/-- A position in the status block: byte 0..5, bit 0..7 (spec/30_encoding.md R76). -/
structure BitPos where
  byte : Fin 6
  bit : Fin 8
  deriving DecidableEq, Repr

/-- STATUS_MAP: a position for each named flag but `fiscalized`, which is hard-wired at (5,3) and which the map may
not move (spec/43_device_status.md R190, R195). -/
structure StatusMap where
  errSyntax : BitPos
  errMechanism : BitPos
  errDate : BitPos
  errRibbonOut : BitPos
  errRibbonControl : BitPos
  errMemoryFull : BitPos
  errWrite : BitPos
  errReadOnly : BitPos
  errDailyReport : BitPos
  errRam : BitPos
  errModuleMissing : BitPos
  errAmountTooBig : BitPos
  errNotAllowed : BitPos
  errMemoryCleared : BitPos
  warnDisplayDisconnected : BitPos
  warnCoverOpen : BitPos
  warnRibbonLow : BitPos
  warnControlRibbonLow : BitPos
  warnSpaceLow : BitPos
  fiscalReceiptOpen : BitPos
  nonFiscalReceiptOpen : BitPos
  deriving DecidableEq, Repr

/-- RETRY_PRED as plain data: a Boolean expression over the 48 status bits. Every total function of the six bytes is
such an expression (spec/44_command_session.md R203, spec/93_implementation_defined.md I8). DESIGN CHOICE, safe
(log 14). -/
inductive StatusPred where
  | const (b : Bool)
  | bit (p : BitPos)
  | neg (a : StatusPred)
  | both (a b : StatusPred)
  deriving DecidableEq, Repr

/-- TEXT_CODEC (R8), the host's mapping between text and bytes: the default, identity on bytes, or another mapping, which
the spec leaves open (N16) and which only a number tells apart here (DESIGN CHOICE, log 35). -/
inductive TextCodec where
  | identity
  | other (n : Nat)
  deriving DecidableEq, Repr

/-- The configuration registers (spec/10_state.md R24) and the implementation parameters a model takes as fields of
its configuration (R8). -/
structure Configuration where
  statusMap : StatusMap
  coverage : Coverage
  busyLimit : Option Nat
  retryLimit : Option Nat
  retryPred : StatusPred
  legacyCodes : List Byte
  intBits : Nat
  realMantBits : Nat
  realMaxScale : Nat
  nslot : Nat
  payloadMax : Nat
  textCodec : TextCodec
  deriving DecidableEq, Repr

/-- FREE VALUE: the positions of the flags in STATUS_MAP until the host supplies a map (R8 "OPEN", I1; log 6). -/
opaque statusPos : Nat → Nat

/-- FREE VALUE: byte `i` of what an error leaves in a buffer or a register; the first argument tells the draws apart
(spec/60_exceptions.md R241, spec/93_implementation_defined.md I13; log 9). -/
opaque freeByte : Nat → Nat → Byte

/-- FREE VALUE: what an error leaves in PLEN or FLEN, within the bound of those registers (spec/10_state.md R27, R241,
I13; log 9). -/
opaque freeLength : Nat → Fin (bufSz + 1)

/-- FREE VALUE: the bytes that the text codec `n`, not the default one, gives a text, if it gives any
(spec/91_not_in_source.md N16, spec/93_implementation_defined.md I10; log 35). -/
opaque codecBytes : Nat → List Nat → Option (List Byte)

/-- FREE VALUE: the text that the text codec `n`, not the default one, reads from bytes, if it reads any (N16, I10;
log 35). -/
opaque codecText : Nat → List Byte → Option (List Nat)

end Sys2Proof.Config
end

