-- ==== Sys2Proof/Machine/Bytes.lean ====
section
/-! DEFINITION. Byte, digit and numeral helpers (spec/00_scope.md R9 to R11, spec/30_encoding.md R71, R72). -/

namespace Sys2Proof

/-- The four bytes in wire order. -/
def Quad.toList (q : Quad) : List Byte := [q.b0, q.b1, q.b2, q.b3]

/-- The four bytes with byte `j` replaced. -/
def Quad.setByte (q : Quad) (j : Nat) (b : Byte) : Quad :=
  match j with
  | 0 => { q with b0 := b }
  | 1 => { q with b1 := b }
  | 2 => { q with b2 := b }
  | 3 => { q with b3 := b }
  | _ => q

/-- The six bytes in wire order, `byte[0]` first (R76). -/
def DeviceStatus.toList (st : DeviceStatus) : List Byte := [st.b0, st.b1, st.b2, st.b3, st.b4, st.b5]

/-- The six bytes with byte `j` replaced. -/
def DeviceStatus.setByte (st : DeviceStatus) (j : Nat) (b : Byte) : DeviceStatus :=
  match j with
  | 0 => { st with b0 := b }
  | 1 => { st with b1 := b }
  | 2 => { st with b2 := b }
  | 3 => { st with b3 := b }
  | 4 => { st with b4 := b }
  | 5 => { st with b5 := b }
  | _ => st

namespace Machine

/-- `sum(s)`: the bytes added as natural numbers (R10). -/
def byteSum : List Byte → Nat
  | [] => 0
  | b :: bs => b.toNat + byteSum bs

/-- `bccDigit(n) = 0x30 + n`, the checksum's own alphabet (R11, R72). -/
def bccDigit (n : BitVec 4) : Byte := 0x30#8 + n.setWidth 8

/-- `hexU(n)`, standard uppercase hex (R11, R71). -/
def hexU (n : BitVec 4) : Byte :=
  if n.toNat ≤ 9 then 0x30#8 + n.setWidth 8 else 0x41#8 + (n.setWidth 8 - 10#8)

/-- `unhex(b)` (spec/41_field_codec.md R113): upper case only. -/
def unhex (b : Byte) : Option Nat :=
  if 0x30 ≤ b.toNat ∧ b.toNat ≤ 0x39 then some (b.toNat - 0x30)
  else if 0x41 ≤ b.toNat ∧ b.toNat ≤ 0x46 then some (b.toNat - 0x41 + 10)
  else none

/-- Whether a byte is an ASCII decimal digit (R75). -/
def isDigit (b : Byte) : Bool := decide (0x30 ≤ b.toNat ∧ b.toNat ≤ 0x39)

/-- The ASCII digit of a number below ten. -/
def digit (n : Nat) : Byte := BitVec.ofNat 8 (0x30 + n)

/-- The value of an ASCII digit. -/
def digitVal (b : Byte) : Nat := b.toNat - 0x30

/-- `value(I)`: the number a digit string spells, most significant digit first (R114). -/
def decValue (ds : List Byte) : Nat := ds.foldl (fun acc d => acc * 10 + digitVal d) 0

/-- `dec2(v)` (R11): two decimal digits, tens first. -/
def dec2 (v : Nat) : List Byte := [digit (v / 10), digit (v % 10)]

/-- `decpad(x, d)` (R105): the last `d` decimal digits of `x`, padded on the left with zeros. -/
def decPad : Nat → Nat → List Byte
  | _, 0 => []
  | x, d + 1 => decPad (x / 10) d ++ [digit (x % 10)]

/-- The decimal digits of `n`, most significant first, with enough fuel. -/
def decFuel : Nat → Nat → List Byte
  | 0, _ => []
  | f + 1, n => if n < 10 then [digit n] else decFuel f (n / 10) ++ [digit (n % 10)]

/-- `dec(x)` (R105): no leading zeros, `0` for zero. -/
def dec (n : Nat) : List Byte := decFuel (n.log2 + 1) n

/-- `hexU` of the four nibbles of a 16-bit quantity, most significant first (R104). -/
def hex4 (v : BitVec 16) : List Byte :=
  [hexU (v.extractLsb 15 12), hexU (v.extractLsb 11 8), hexU (v.extractLsb 7 4), hexU (v.extractLsb 3 0)]

end Machine
end Sys2Proof
end

