-- ==== Sys2Proof/Syntax.lean ====
section
/-! DEFINITION. The operations of the protocol engine, one constructor for each row of spec/opcode_table.json
(spec/30_encoding.md R67 to R69, R80), and the names of the status flags and field codes. -/

namespace Sys2Proof

/-- The 22 named flags, in index order 0..21 (spec/43_device_status.md R171 to R192). -/
inductive Flag where
  | errSyntax | errMechanism | errDate | errRibbonOut | errRibbonControl | errMemoryFull | errWrite
  | errReadOnly | errDailyReport | errRam | errModuleMissing | errAmountTooBig | errNotAllowed | errMemoryCleared
  | warnDisplayDisconnected | warnCoverOpen | warnRibbonLow | warnControlRibbonLow | warnSpaceLow
  | fiscalized | fiscalReceiptOpen | nonFiscalReceiptOpen
  deriving DecidableEq, Repr

/-- The five typed codes `W`, `B`, `T`, `Q`, `q` of a format template (R69). -/
inductive FieldCode where
  | w | b | t | q | qs
  deriving DecidableEq, Repr

/-- One constructor per row of the table. Operands that the table gives no bits (the header, the payload, a template,
a slot, a command) are not part of the word: they are read from the port's operand latch, the slot files and the
buffers. -/
inductive Instr where
  | bccSum | bccRender | bccVerify
  | feRun | fdRun
  | frmEncHost | frmEncDevice | frmDec (expst : Bool)
  | stErrSyntax | stErrMechanism | stErrDate | stErrRibbonOut | stErrRibbonControl | stErrMemoryFull | stErrWrite
  | stErrReadOnly | stErrDailyReport | stErrRam | stErrModuleMissing | stErrAmountTooBig | stErrNotAllowed
  | stErrMemoryCleared
  | stWarnDisplayDisconnected | stWarnCoverOpen | stWarnRibbonLow | stWarnControlRibbonLow | stWarnSpaceLow
  | stFiscalized | stFiscalReceiptOpen | stNonFiscalReceiptOpen
  | stFlag (index : BitVec 5)
  | stHasErr | stHasWarn
  | sesCall
  | illegal0 | illegalC | illegalD | illegalE | illegalF
  | sesNextId
  | feW | fdW | feB | fdB | feT | fdT | feQ | fdQ | feQs | fdQs
  | feLit (k : Byte) | fdLit (k : Byte)
  | rxStart | rxNak | rxBusy | rxBad (b : Byte)
  | stmark | pterm | fterm | esc
  deriving DecidableEq, Repr

end Sys2Proof
end

