-- ==== Sys2Proof/WellFormed.lean ====
section
/-! DEFINITION. Which instructions have a word of their own (spec/30_encoding.md R67, R69, R80): a literal token is not
one of the five typed codes, a bad first byte is none of START, NAK, BUSY, and the generic form of ST.FLAG keeps the
indices that no named row has (log 29). -/

namespace Sys2Proof

/-- The five token bytes that are typed codes (R69): `B`, `Q`, `T`, `W`, `q`. -/
def typedBytes : List Byte := [0x42#8, 0x51#8, 0x54#8, 0x57#8, 0x71#8]

/-- The three first bytes of a response that have a meaning (R67). -/
def firstBytes : List Byte := [Config.start, Config.nak, Config.busy]

def Instr.wellFormed : Instr → Bool
  | .feLit k => !typedBytes.contains k
  | .fdLit k => !typedBytes.contains k
  | .rxBad b => !firstBytes.contains b
  | .stFlag i => decide (22 ≤ i.toNat)
  | _ => true

abbrev WellFormed (i : Instr) : Prop := i.wellFormed = true

end Sys2Proof
end

