-- ==== Sys2Proof/Decode.lean ====
section
/-! DEFINITION. The decoder and the encoder (spec/30_encoding.md R67 to R69, R77, R80, spec/opcode_table.json). A word
is read in the decode space it stands in: the same byte 0x57 is `FE.W` under `FE.RUN` and `FD.W` under `FD.RUN`. -/

namespace Sys2Proof

/-- Which field operation a template byte selects: under `FE.RUN` or under `FD.RUN` (format `token8`, R80). -/
inductive TokenDir where
  | enc | dec
  deriving DecidableEq, Repr

/-- A word in its decode space, one constructor per format of R80. -/
inductive CodeWord where
  | op4 (w : BitVec 4)
  | op4Expst (w : BitVec 5)
  | op4Flag5 (w : BitVec 9)
  | token8 (d : TokenDir) (w : Byte)
  | rxFirst8 (w : Byte)
  | wire8 (w : Byte)
  | internal
  deriving DecidableEq, Repr

/-- Why a word is no instruction. -/
inductive Reject where
  /-- `op_sel` 6 or 7 needs the EXPST bit after it. -/
  | needsExpst
  /-- `op_sel` 8 needs the flag index after it. -/
  | needsFlagIndex
  /-- Five bits whose `op_sel` is not 6 or 7. -/
  | takesNoExpst
  /-- Nine bits whose `op_sel` is not 8. -/
  | takesNoFlagIndex
  /-- A byte that is not one of the four structural bytes of the table's `wire8` rows (R68). -/
  | notStructural
  deriving DecidableEq, Repr

/-- The named rows of ST.FLAG in index order (R170 to R192). -/
def flagRows : List Instr :=
  [.stErrSyntax, .stErrMechanism, .stErrDate, .stErrRibbonOut, .stErrRibbonControl, .stErrMemoryFull, .stErrWrite,
   .stErrReadOnly, .stErrDailyReport, .stErrRam, .stErrModuleMissing, .stErrAmountTooBig, .stErrNotAllowed,
   .stErrMemoryCleared] ++
  [.stWarnDisplayDisconnected, .stWarnCoverOpen, .stWarnRibbonLow, .stWarnControlRibbonLow, .stWarnSpaceLow,
   .stFiscalized, .stFiscalReceiptOpen, .stNonFiscalReceiptOpen]

/-- Format `op4` (R80). -/
def decodeOp4 (w : BitVec 4) : Except Reject Instr :=
  if w = 0x0#4 then .ok .illegal0
  else if w = 0x1#4 then .ok .bccSum
  else if w = 0x2#4 then .ok .bccRender
  else if w = 0x3#4 then .ok .bccVerify
  else if w = 0x4#4 then .ok .feRun
  else if w = 0x5#4 then .ok .fdRun
  else if w = 0x6#4 then .error .needsExpst
  else if w = 0x7#4 then .error .needsExpst
  else if w = 0x8#4 then .error .needsFlagIndex
  else if w = 0x9#4 then .ok .stHasErr
  else if w = 0xA#4 then .ok .stHasWarn
  else if w = 0xB#4 then .ok .sesCall
  else if w = 0xC#4 then .ok .illegalC
  else if w = 0xD#4 then .ok .illegalD
  else if w = 0xE#4 then .ok .illegalE
  else .ok .illegalF

/-- Format `op4_expst`: `op_sel` in bits 4:1, EXPST in bit 0 (R80). -/
def decodeOp4Expst (w : BitVec 5) : Except Reject Instr :=
  if w.extractLsb 4 1 = 0x6#4 then .ok (if w.getLsbD 0 then .frmEncDevice else .frmEncHost)
  else if w.extractLsb 4 1 = 0x7#4 then .ok (.frmDec (w.getLsbD 0))
  else .error .takesNoExpst

/-- Format `op4_flag5`: `op_sel` in bits 8:5, the flag index in bits 4:0 (R80, R170). -/
def decodeOp4Flag5 (w : BitVec 9) : Except Reject Instr :=
  if w.extractLsb 8 5 = 0x8#4 then
    match flagRows[(w.extractLsb 4 0).toNat]? with
    | some i => .ok i
    | none => .ok (.stFlag (w.extractLsb 4 0))
  else .error .takesNoFlagIndex

/-- Format `token8` under `FE.RUN`: total, every other byte is a literal (R69, R77). -/
def decodeTokenEnc (w : Byte) : Instr :=
  if w = 0x57#8 then .feW
  else if w = 0x42#8 then .feB
  else if w = 0x54#8 then .feT
  else if w = 0x51#8 then .feQ
  else if w = 0x71#8 then .feQs
  else .feLit w

/-- Format `token8` under `FD.RUN` (R69, R77). -/
def decodeTokenDec (w : Byte) : Instr :=
  if w = 0x57#8 then .fdW
  else if w = 0x42#8 then .fdB
  else if w = 0x54#8 then .fdT
  else if w = 0x51#8 then .fdQ
  else if w = 0x71#8 then .fdQs
  else .fdLit w

/-- Format `rxfirst8` (R67). -/
def decodeRxFirst (w : Byte) : Instr :=
  if w = 0x01#8 then .rxStart
  else if w = 0x15#8 then .rxNak
  else if w = 0x16#8 then .rxBusy
  else .rxBad w

/-- Format `wire8` (R68, R116). -/
def decodeWire (w : Byte) : Except Reject Instr :=
  if w = 0x04#8 then .ok .stmark
  else if w = 0x05#8 then .ok .pterm
  else if w = 0x03#8 then .ok .fterm
  else if w = 0x10#8 then .ok .esc
  else .error .notStructural

/-- The instruction a word stands for, or the name of why it stands for none. -/
def decode : CodeWord → Except Reject Instr
  | .op4 w => decodeOp4 w
  | .op4Expst w => decodeOp4Expst w
  | .op4Flag5 w => decodeOp4Flag5 w
  | .token8 .enc w => .ok (decodeTokenEnc w)
  | .token8 .dec w => .ok (decodeTokenDec w)
  | .rxFirst8 w => .ok (decodeRxFirst w)
  | .wire8 w => decodeWire w
  | .internal => .ok .sesNextId

/-- The word of an instruction, as spec/opcode_table.json gives it. -/
def encode : Instr → CodeWord
  | .bccSum => .op4 0x1#4
  | .bccRender => .op4 0x2#4
  | .bccVerify => .op4 0x3#4
  | .feRun => .op4 0x4#4
  | .fdRun => .op4 0x5#4
  | .frmEncHost => .op4Expst 0b01100#5
  | .frmEncDevice => .op4Expst 0b01101#5
  | .frmDec e => .op4Expst (0x7#4 ++ BitVec.ofBool e)
  | .stErrSyntax => .op4Flag5 0b100000000#9
  | .stErrMechanism => .op4Flag5 0b100000001#9
  | .stErrDate => .op4Flag5 0b100000010#9
  | .stErrRibbonOut => .op4Flag5 0b100000011#9
  | .stErrRibbonControl => .op4Flag5 0b100000100#9
  | .stErrMemoryFull => .op4Flag5 0b100000101#9
  | .stErrWrite => .op4Flag5 0b100000110#9
  | .stErrReadOnly => .op4Flag5 0b100000111#9
  | .stErrDailyReport => .op4Flag5 0b100001000#9
  | .stErrRam => .op4Flag5 0b100001001#9
  | .stErrModuleMissing => .op4Flag5 0b100001010#9
  | .stErrAmountTooBig => .op4Flag5 0b100001011#9
  | .stErrNotAllowed => .op4Flag5 0b100001100#9
  | .stErrMemoryCleared => .op4Flag5 0b100001101#9
  | .stWarnDisplayDisconnected => .op4Flag5 0b100001110#9
  | .stWarnCoverOpen => .op4Flag5 0b100001111#9
  | .stWarnRibbonLow => .op4Flag5 0b100010000#9
  | .stWarnControlRibbonLow => .op4Flag5 0b100010001#9
  | .stWarnSpaceLow => .op4Flag5 0b100010010#9
  | .stFiscalized => .op4Flag5 0b100010011#9
  | .stFiscalReceiptOpen => .op4Flag5 0b100010100#9
  | .stNonFiscalReceiptOpen => .op4Flag5 0b100010101#9
  | .stFlag i => .op4Flag5 (0x8#4 ++ i)
  | .stHasErr => .op4 0x9#4
  | .stHasWarn => .op4 0xA#4
  | .sesCall => .op4 0xB#4
  | .illegal0 => .op4 0x0#4
  | .illegalC => .op4 0xC#4
  | .illegalD => .op4 0xD#4
  | .illegalE => .op4 0xE#4
  | .illegalF => .op4 0xF#4
  | .sesNextId => .internal
  | .feW => .token8 .enc 0x57#8
  | .fdW => .token8 .dec 0x57#8
  | .feB => .token8 .enc 0x42#8
  | .fdB => .token8 .dec 0x42#8
  | .feT => .token8 .enc 0x54#8
  | .fdT => .token8 .dec 0x54#8
  | .feQ => .token8 .enc 0x51#8
  | .fdQ => .token8 .dec 0x51#8
  | .feQs => .token8 .enc 0x71#8
  | .fdQs => .token8 .dec 0x71#8
  | .feLit k => .token8 .enc k
  | .fdLit k => .token8 .dec k
  | .rxStart => .rxFirst8 0x01#8
  | .rxNak => .rxFirst8 0x15#8
  | .rxBusy => .rxFirst8 0x16#8
  | .rxBad b => .rxFirst8 b
  | .stmark => .wire8 0x04#8
  | .pterm => .wire8 0x05#8
  | .fterm => .wire8 0x03#8
  | .esc => .wire8 0x10#8

/-- The word the host presents at the port: `op_sel`, followed by EXPST for `op_sel` 6 and 7 and by the flag index for
`op_sel` 8 (R80). -/
def portWord (op : BitVec 4) (expst : Bool) (flag : BitVec 5) : CodeWord :=
  if op = 0x6#4 ∨ op = 0x7#4 then .op4Expst (op ++ BitVec.ofBool expst)
  else if op = 0x8#4 then .op4Flag5 (op ++ flag)
  else .op4 op

/-- The decode space in which a bare table word of `nbits` bits is read when nothing but its value is known. DESIGN
CHOICE (log 3): no bits is the internal row; up to 8 bits a value below 16 is an `op_sel`, 0x10 is ESC, 0x15 and 0x16
are the first bytes NAK and BUSY, any other byte a token of `FE.RUN`; exactly 5 bits is `op4_expst`; 9 to 16 bits is
`op4_flag5`. -/
def tableWord (nbits w : Nat) : Option CodeWord :=
  if nbits = 0 then some .internal
  else if nbits = 5 then
    if w < 32 then some (.op4Expst (BitVec.ofNat 5 w)) else none
  else if nbits ≤ 8 then
    if w < 16 then some (.op4 (BitVec.ofNat 4 w))
    else if w = 0x10 then some (.wire8 (BitVec.ofNat 8 w))
    else if w = 0x15 ∨ w = 0x16 then some (.rxFirst8 (BitVec.ofNat 8 w))
    else if w < 256 then some (.token8 .enc (BitVec.ofNat 8 w))
    else none
  else if nbits ≤ 16 then
    if w < 512 then some (.op4Flag5 (BitVec.ofNat 9 w)) else none
  else none

/-- The instruction the decoder reads from a table word (log 3). -/
def decodeTableWord (nbits w : Nat) : Option Instr :=
  match tableWord nbits w with
  | some c =>
    match decode c with
    | .ok i => some i
    | .error _ => none
  | none => none

end Sys2Proof
end

