-- ==== Sys2Proof/Machine/Memory.lean ====
section
/-! DEFINITION. A scratch buffer: 1024 byte addresses, a byte that nothing has written holds no value
(spec/10_state.md R27, R29, spec/20_memory.md R40 to R43). Held as a list of (address, byte) pairs, addresses strictly
rising; an unlisted address has no value (log 8). -/

namespace Sys2Proof.Machine

abbrev Memory := List Host.Cell

/-- The canonical form: addresses strictly rising and inside the buffer. -/
abbrev Memory.wf (m : Memory) : Prop :=
  m.Pairwise (fun x y => x.1 < y.1) ∧ ∀ c ∈ m, c.1 < Config.bufSz

/-- The byte at an address, or `none` where nothing has been written. -/
def Memory.read : Memory → Nat → Option Byte
  | [], _ => none
  | (k, v) :: m, a => if k = a then some v else Memory.read m a

/-- Insertion in address order. -/
def Memory.insert (a : Nat) (b : Byte) : Memory → Memory
  | [] => [(a, b)]
  | (k, v) :: m =>
    if a < k then (a, b) :: (k, v) :: m
    else if a = k then (a, b) :: m
    else (k, v) :: Memory.insert a b m

/-- Writing one byte: a write past the last address does not happen (R43). -/
def Memory.write (m : Memory) (a : Nat) (b : Byte) : Memory :=
  if a < Config.bufSz then Memory.insert a b m else m

/-- `MemWrite(space, a, n, s)` (R11): the bytes of `s` at rising addresses from `a`. -/
def Memory.writeBytes (m : Memory) (a : Nat) : List Byte → Memory
  | [] => m
  | b :: bs => Memory.writeBytes (Memory.write m a b) (a + 1) bs

/-- `MemRead(space, a, n)` (R11): the `n` bytes from `a`, or `none` where one of them holds no value. -/
def Memory.readBytes (m : Memory) (a : Nat) : Nat → Option (List Byte)
  | 0 => some []
  | n + 1 =>
    match Memory.read m a, Memory.readBytes m (a + 1) n with
    | some b, some bs => some (b :: bs)
    | _, _ => none

/-- The first address of a run that holds no value. -/
def Memory.firstUnwritten (m : Memory) (a : Nat) : Nat → Nat
  | 0 => a
  | n + 1 => if (Memory.read m a).isNone then a else Memory.firstUnwritten m (a + 1) n

/-- A buffer of free bytes, every address written: what an error leaves (spec/60_exceptions.md R241; log 9). Irreducible:
its lemmas in Laws/Memory.lean say what is known of it, and no proof unfolds 1024 bytes. -/
@[irreducible] def freeBuffer (k : Nat) : Memory := (List.range Config.bufSz).map fun a => (a, Config.freeByte k a)

/-- Every address of a run holds a value. -/
abbrev Memory.covers (m : Memory) (n : Nat) : Prop := ∀ a < n, (Memory.read m a).isSome

end Sys2Proof.Machine
end

