-- ==== Sys2Proof/Machine/StatusMap.lean ====
section
/-! DEFINITION. STATUS_MAP: looking a flag up, which maps are admissible (spec/43_device_status.md R190, R195), and the
free map that stands until the host supplies one (log 6). -/

namespace Sys2Proof

open Config

/-- `STATUS_MAP[name]`; `fiscalized` is hard-wired at (5,3) (R190). -/
def Config.StatusMap.pos (m : StatusMap) : Flag → BitPos
  | .errSyntax => m.errSyntax
  | .errMechanism => m.errMechanism
  | .errDate => m.errDate
  | .errRibbonOut => m.errRibbonOut
  | .errRibbonControl => m.errRibbonControl
  | .errMemoryFull => m.errMemoryFull
  | .errWrite => m.errWrite
  | .errReadOnly => m.errReadOnly
  | .errDailyReport => m.errDailyReport
  | .errRam => m.errRam
  | .errModuleMissing => m.errModuleMissing
  | .errAmountTooBig => m.errAmountTooBig
  | .errNotAllowed => m.errNotAllowed
  | .errMemoryCleared => m.errMemoryCleared
  | .warnDisplayDisconnected => m.warnDisplayDisconnected
  | .warnCoverOpen => m.warnCoverOpen
  | .warnRibbonLow => m.warnRibbonLow
  | .warnControlRibbonLow => m.warnControlRibbonLow
  | .warnSpaceLow => m.warnSpaceLow
  | .fiscalized => ⟨5, 3⟩
  | .fiscalReceiptOpen => m.fiscalReceiptOpen
  | .nonFiscalReceiptOpen => m.nonFiscalReceiptOpen

/-- The 14 error flags, index 0 to 13 (R171 to R184). -/
def errorFlags : List Flag :=
  [.errSyntax, .errMechanism, .errDate, .errRibbonOut, .errRibbonControl, .errMemoryFull, .errWrite, .errReadOnly,
   .errDailyReport, .errRam, .errModuleMissing, .errAmountTooBig, .errNotAllowed, .errMemoryCleared]

/-- The 5 warning flags, index 14 to 18 (R185 to R189). -/
def warningFlags : List Flag :=
  [.warnDisplayDisconnected, .warnCoverOpen, .warnRibbonLow, .warnControlRibbonLow, .warnSpaceLow]

/-- The 3 state flags, index 19 to 21 (R190 to R192). -/
def stateFlags : List Flag := [.fiscalized, .fiscalReceiptOpen, .nonFiscalReceiptOpen]

/-- The 22 flags in index order (R170). -/
def allFlags : List Flag := errorFlags ++ warningFlags ++ stateFlags

/-- The bits set in the source's example block `80 80 80 85 80 BA`, none of which is an error position (R195 (c)). -/
def exampleBits : List BitPos :=
  [⟨0, 7⟩, ⟨1, 7⟩, ⟨2, 7⟩, ⟨3, 7⟩, ⟨3, 2⟩, ⟨3, 0⟩, ⟨4, 7⟩, ⟨5, 7⟩, ⟨5, 5⟩, ⟨5, 4⟩, ⟨5, 3⟩, ⟨5, 1⟩]

/-- How many distinct byte indices the error positions use. -/
def errorByteCount (m : StatusMap) : Nat :=
  (([0, 1, 2, 3, 4, 5] : List (Fin 6)).filter fun i => errorFlags.any fun f => decide ((m.pos f).byte = i)).length

/-- A map is admissible (R195): (a) holds by the type; (b) the error positions use exactly three byte indices; (c) no
error position is a bit set in the source's example block. -/
def Config.StatusMap.admissible (m : StatusMap) : Bool :=
  decide (errorByteCount m = 3) && errorFlags.all fun f => !exampleBits.contains (m.pos f)

/-- The position a number below 48 stands for. -/
def posOfNat (k : Nat) : BitPos :=
  ⟨⟨k % 48 / 8, by omega⟩, ⟨k % 8, by omega⟩⟩

/-- Twenty-one positions numbered 0 to 20, as a map. -/
def mapOf (p : Nat → BitPos) : StatusMap where
  errSyntax := p 0
  errMechanism := p 1
  errDate := p 2
  errRibbonOut := p 3
  errRibbonControl := p 4
  errMemoryFull := p 5
  errWrite := p 6
  errReadOnly := p 7
  errDailyReport := p 8
  errRam := p 9
  errModuleMissing := p 10
  errAmountTooBig := p 11
  errNotAllowed := p 12
  errMemoryCleared := p 13
  warnDisplayDisconnected := p 14
  warnCoverOpen := p 15
  warnRibbonLow := p 16
  warnControlRibbonLow := p 17
  warnSpaceLow := p 18
  fiscalReceiptOpen := p 19
  nonFiscalReceiptOpen := p 20

/-- One admissible map, needed only so that `freeStatusMap` is admissible whatever the free positions are. It is not
the device's table. -/
def someStatusMap : StatusMap := mapOf fun k =>
  if k < 6 then posOfNat k else if k < 12 then posOfNat (8 + (k - 6)) else posOfNat (16 + (k - 12))

/-- FREE VALUE: STATUS_MAP before the host has supplied it. It is the free positions where they make an admissible
map, so every admissible map is one of its values, and it is always admissible (R8 "OPEN", I1; log 6). -/
def freeStatusMap : StatusMap :=
  if (mapOf fun k => posOfNat (Config.statusPos k)).admissible then mapOf fun k => posOfNat (Config.statusPos k)
  else someStatusMap

end Sys2Proof
end

