-- ==== Sys2Proof/Machine/State.lean ====
section
/-! DEFINITION. The state of the protocol engine as plain data (spec/10_state.md), its error record
(spec/60_exceptions.md R220 to R234), the reasons a step can stop, and the state after reset (R29). -/

namespace Sys2Proof.Machine

open Config

/-- Slot kinds (R15). -/
inductive Kind where
  | int | real | text | char | datetime
  deriving DecidableEq, Repr

/-- DATETIME `(day, month, year, hour, minute, second)` (R15): the year is 0..65535; a field above 99 can stand in a slot
and is refused on encode (R107, R108). -/
structure DateTime where
  day : Nat
  month : Nat
  year : Fin 65536
  hour : Nat
  minute : Nat
  second : Nat
  deriving DecidableEq, Repr

/-- A tagged slot value (R15). REAL `(m, d)` is the decimal number `m / 10^d`. The other bounds of R15 are checked
where the spec checks them (R104, R105, R107, R108, and R43 for a TEXT), so a slot may hold a value outside them. -/
inductive SlotVal where
  | int (v : Int)
  | real (m : Int) (d : Nat)
  | text (s : List Byte)
  | char (c : Byte)
  | datetime (v : DateTime)
  deriving DecidableEq, Repr

/-- A placeholder of SLOT_OUT: the kind the host wrote and the value SFP-PE wrote, if it has (R14). -/
structure OutSlot where
  kind : Kind
  val : Option SlotVal
  deriving DecidableEq, Repr

/-- RXS, the receive state (R16). -/
inductive Rxs where
  | idle | waitStart | hdr | payload | stmark | status | pterm | bcc | fterm | check | done | fail
  deriving DecidableEq, Repr

/-- SES, the sequencer state (R18). -/
inductive Ses where
  | idle | sending | awaitingResponse | decoded | retryRequested | failed
  deriving DecidableEq, Repr

/-- What `MalformedFrame` says was expected: a byte, or a length byte of at least `min` (R221). -/
inductive Expected where
  | byte (b : Byte)
  | atLeast (min : Nat)
  deriving DecidableEq, Repr

/-- The information of `DecodeMismatch` (R225); `pos` is the payload index (log 12). -/
inductive DecodeInfo where
  /-- A literal or a date-time separator; `observed` is `none` where the payload ends. -/
  | expected (pos : Nat) (observed : Option Byte) (want : Byte)
  /-- A `B` or `T` field whose text does not parse. -/
  | parseText (code : FieldCode) (text : List Byte)
  /-- A `W` byte that is no hex digit. -/
  | parseByte (code : FieldCode) (byte : Byte)
  /-- A `Q` or `q` byte that is no digit. -/
  | parseAt (code : FieldCode) (pos : Nat) (byte : Byte)
  /-- A bad escape pair. -/
  | escape (pos : Nat) (observed : Option Byte)
  /-- A payload too short for a field. -/
  | short (pos : Nat) (code : FieldCode)
  /-- Bytes left after the template. -/
  | trailing (pos : Nat)
  deriving DecidableEq, Repr

/-- The information of `ParamMismatch` (R227). -/
inductive ParamInfo where
  /-- Slot index, code, and the slot's kind (`none` where the slot holds no value; log 15). -/
  | slot (index : Nat) (code : FieldCode) (kind : Option Kind)
  | count (expected given : Nat)
  /-- A status query while SRV = 0 (log 15). -/
  | noStatus
  deriving DecidableEq, Repr

/-- ERR: the kind and its information record (R23, R220 to R234). -/
inductive Err where
  | none
  | malformedFrame (pos : Nat) (observed : Byte) (expected : Expected)
  | checksumMismatch (expected observed : Quad)
  | protocolReject
  | deviceStatusError (st : DeviceStatus)
  | decodeMismatch (info : DecodeInfo)
  | channelFail (rxs : Rxs) (consumed : Nat)
  | paramMismatch (info : ParamInfo)
  | encodeRange (index : Nat) (code : FieldCode) (value : SlotVal)
  | payloadTooLong (length : Nat)
  | templateRefused (pos : Nat)
  | unknownCommand (cmd : List Byte)
  | busyLimit (count : Nat)
  | retryLimit (st : DeviceStatus)
  | illegalOp
  deriving DecidableEq, Repr

/-- One answer of `ChanRead` (R11): a byte or `fail`. No answer at all is an empty list of answers. -/
inductive ChanAnswer where
  | byte (b : Byte)
  | fail
  deriving DecidableEq, Repr

/-- A command descriptor (R26). A command is named by the bytes of its name (log 30). -/
structure Descriptor where
  number : Byte
  hostFormat : List Byte
  deviceFormat : List Byte
  deriving DecidableEq, Repr

/-- One entry of the command table (R26). -/
structure CmdEntry where
  name : List Byte
  desc : Descriptor
  deriving DecidableEq, Repr

/-- The operands the host supplies with an operation (spec/30_encoding.md R80, opcode_table.json "operands"): the header
`h`, the payload bytes `p`, the status block (`hasStatus` false is `st = none`), the received digits `r`, the value `s`
to render, the template, the id and number of FRM.ENC, and the command. -/
structure Operands where
  h : Quad
  p : List Byte
  hasStatus : Bool
  status : DeviceStatus
  r : Quad
  s : BitVec 16
  template : List Byte
  id : Byte
  num : Byte
  cmd : List Byte
  deriving DecidableEq, Repr

/-- A request at the host port: `op_sel`, EXPST, the flag index, the operands (R80). The spec fixes no port width for
EXPST and the flag index (R80, D1): they have the widths of the rows of opcode_table.json, 1 and 5 bits, so no flag
index above 31 can be requested (DESIGN CHOICE, log 36). -/
structure Request where
  op : BitVec 4
  expst : Bool
  flag : BitVec 5
  operands : Operands
  deriving DecidableEq, Repr

/-- What the host can do (R14, R24, R260, R262; log 4). -/
inductive HostAct where
  | start (r : Request)
  | writeSlotIn (i : Nat) (v : SlotVal)
  | writeInCnt (n : Nat)
  | writeSlotOutKind (i : Nat) (k : Kind)
  | writeOutCnt (n : Nat)
  | writeStatusMap (m : StatusMap)
  | writeCoverage (c : Coverage)
  | writeBusyLimit (l : Option Nat)
  | writeRetryLimit (l : Option Nat)
  | writeRetryPred (p : StatusPred)
  | writeLegacyCodes (l : List Byte)
  | buildTable (t : List CmdEntry)
  | reset
  deriving DecidableEq, Repr

/-- One action of the host; `early` says that the host does not wait for the running operation to end (R270; log 4). -/
structure PortEvent where
  early : Bool
  act : HostAct
  deriving DecidableEq, Repr

/-- The two variable-width codes. -/
inductive VarCode where
  | b | t
  deriving DecidableEq, Repr

/-- Which operation is in progress and where its pseudocode stands; `inCall` says that it runs inside `SES.CALL`
(R48, R201, R270). -/
inductive Activity where
  /-- No operation in progress. -/
  | idle
  /-- The token loop of `FE.RUN` (R102). -/
  | fieldEnc (inCall : Bool)
  /-- The token loop of `FD.RUN` (R110). -/
  | fieldDec (inCall : Bool)
  /-- Inside `FD.T` or `FD.B`, at an escape marker of the field (R116). -/
  | unescape (inCall : Bool) (code : VarCode)
  /-- `FRM.DEC`; RXS says where (R142). -/
  | frameDec (inCall : Bool)
  /-- The label `round:` of `SES.CALL` (R201). -/
  | callRound
  /-- SES is Sending: the payload is encoded next (R201). -/
  | callEncode
  /-- The payload is encoded and its length checked: the id is taken next (R201). -/
  | callNextId
  /-- The id is taken: the frame is built next (R201). -/
  | callFrame
  /-- The frame is built: it is written next (R201). -/
  | callWrite
  /-- A response has been accepted: its status is tested next (R201). -/
  | callStatus
  deriving DecidableEq, Repr

/-- What an operation delivers to the host (R263). -/
inductive Result where
  | none
  /-- `BCC.SUM`. -/
  | sum (s : BitVec 16)
  /-- `BCC.RENDER`. -/
  | digits (d : Quad)
  /-- `BCC.VERIFY`: ok. -/
  | verified
  /-- `FE.RUN`, `FD.RUN`: ended without error. -/
  | done
  /-- `FRM.ENC`: the frame. -/
  | frame (f : List Byte)
  /-- `FRM.DEC`: `(RXID, RXNUM, payload, status)`. -/
  | received (id num : Byte) (payload : List Byte) (status : Option DeviceStatus)
  /-- `ST.*`. -/
  | flag (b : Bool)
  /-- `SES.CALL`: `RXID`, `RXNUM` and `SR` of the accepted response; the values are in SLOT_OUT. -/
  | response (id num : Byte) (status : DeviceStatus)
  deriving DecidableEq, Repr

/-- Everything the spec gives the machine, the working state its pseudocode implies, the model's own marks, and the
environment (the two streams and the host's pending actions). INVENTORY.md lists each with its rule. -/
structure State where
  slotIn : List (Option SlotVal)
  inCnt : Nat
  slotOut : List (Option OutSlot)
  outCnt : Nat
  rxs : Rxs
  rxcnt : Nat
  busycnt : Nat
  tc : Nat
  pc : Nat
  sc : Nat
  ses : Ses
  retrycnt : Nat
  mid : Byte
  expst : Bool
  sr : DeviceStatus
  srv : Bool
  rxid : Byte
  rxnum : Byte
  rxlen : Byte
  err : Err
  cfg : Configuration
  table : List CmdEntry
  tableBuilt : Bool
  pbuf : Memory
  plen : Nat
  fbuf : Memory
  flen : Nat
  rxSt : DeviceStatus
  rxBcc : Quad
  rxUsed : Nat
  tmpl : List Byte
  desc : Descriptor
  callId : Byte
  fldRaw : List Byte
  fldJ : Nat
  fldU : List Byte
  opnd : Operands
  result : Result
  act : Activity
  idOk : Bool
  outOk : Bool
  freeCtr : Nat
  rx : List ChanAnswer
  tx : List Byte
  port : List PortEvent
  deriving DecidableEq, Repr

/-- The two scratch buffers (R40). -/
inductive Space where
  | pbuf | fbuf
  deriving DecidableEq, Repr

/-- Why the machine stops. No run from reset reaches either. -/
inductive Fault where
  /-- A buffer byte that holds no value is read (R29: "a read is refused, not answered with zero"). Raised by
  `MemRead`; safe. -/
  | unwrittenByte (space : Space) (address : Nat)
  /-- `FRM.DEC` is in progress while RXS is `IDLE` or `FAIL`, which R16 excludes. Raised by the receive machine; safe. -/
  | rxsOutOfStep
  deriving DecidableEq, Repr

/-- Why a step has no meaning. -/
inductive Refusal where
  /-- An instruction whose arm has no meaning; raised by `exec`; safe. -/
  | notModelled (mnemonic : String)
  /-- The host writes a slot, a kind, a count, the configuration or the table while an operation runs (R270, I14:
  `refuse`); raised by the host port; safe. -/
  | hostWriteWhileBusy
  /-- Reset while an operation runs (R260, I31: `refuse`); raised by the host port; safe. -/
  | resetWhileBusy
  /-- A slot index or count outside the slot file (R14); raised by the host port; safe. -/
  | noSuchSlot
  /-- A STATUS_MAP that R195 does not admit; raised by the host port; safe. -/
  | inadmissibleStatusMap
  /-- LEGACY_CODES made non-empty: the source gives the codes no layout (R128); raised by the host port; safe. -/
  | legacyCodesHaveNoLayout
  /-- The command table is built a second time (R26 "read-only thereafter"); raised by the host port; safe. -/
  | tableIsReadOnly
  deriving DecidableEq, Repr

/-- The outcome of one step. -/
abbrev Out := Host.Outcome State Fault Refusal

/-- The defaults of R8; STATUS_MAP is open, hence free (log 6). -/
def defaultConfiguration : Configuration where
  statusMap := freeStatusMap
  coverage := .block
  busyLimit := none
  retryLimit := none
  retryPred := .const false
  legacyCodes := []
  intBits := 32
  realMantBits := 64
  realMaxScale := 15
  nslot := 32
  payloadMax := Config.payloadMax
  textCodec := .identity

/-- Operands before the host has supplied any (log 5). -/
def Operands.zero : Operands := ⟨Quad.zero, [], false, DeviceStatus.zero, Quad.zero, 0, [], 0, 0, []⟩

/-- The one entry of the command table the source gives: "M33" (R215; log 7). -/
def entryM33 : CmdEntry := ⟨[0x4D#8, 0x33#8, 0x33#8], ⟨33#8, [], []⟩⟩

/-- The machine right after reset (R29, R260; the values the spec leaves unspecified: log 5). -/
def State.reset : State where
  slotIn := List.replicate 32 none
  inCnt := 0
  slotOut := List.replicate 32 none
  outCnt := 0
  rxs := .idle
  rxcnt := 0
  busycnt := 0
  tc := 0
  pc := 0
  sc := 0
  ses := .idle
  retrycnt := 0
  mid := 32#8
  expst := false
  sr := DeviceStatus.zero
  srv := false
  rxid := 0
  rxnum := 0
  rxlen := 0
  err := .none
  cfg := defaultConfiguration
  table := [entryM33]
  tableBuilt := false
  pbuf := []
  plen := 0
  fbuf := []
  flen := 0
  rxSt := DeviceStatus.zero
  rxBcc := Quad.zero
  rxUsed := 0
  tmpl := []
  desc := ⟨0, [], []⟩
  callId := 0
  fldRaw := []
  fldJ := 0
  fldU := []
  opnd := Operands.zero
  result := .none
  act := .idle
  idOk := false
  outOk := false
  freeCtr := 0
  rx := []
  tx := []
  port := []

end Sys2Proof.Machine
end

