-- ==== Sys2Proof/Machine/Ops.lean ====
section
/-! DEFINITION. The shared operations over state: starting and ending an operation, raising an error
(spec/60_exceptions.md R240 to R242), the buffer and channel primitives (spec/00_scope.md R11, spec/20_memory.md). -/

namespace Sys2Proof.Machine

/-- Whether the activity belongs to a running `SES.CALL`. -/
def Activity.inCall : Activity → Bool
  | .fieldEnc c => c
  | .fieldDec c => c
  | .unescape c _ => c
  | .frameDec c => c
  | .callRound => true
  | .callEncode => true
  | .callNextId => true
  | .callFrame => true
  | .callWrite => true
  | .callStatus => true
  | .idle => false

/-- Whether `FRM.DEC` is running. -/
def Activity.isFrameDec : Activity → Bool
  | .frameDec _ => true
  | _ => false

/-- The start of every host operation: ERR is cleared (R23, R242) and no result is delivered yet. -/
def startOp (s : State) : State := { s with err := .none, result := .none }

/-- The end of an operation: its result is delivered and no operation is in progress (R263). -/
def deliver (r : Result) (s : State) : State := { s with result := r, act := .idle }

/-- A placeholder without its value: the kind is the host's and stays (R14). -/
def OutSlot.drop (o : OutSlot) : OutSlot := { o with val := none }

/-- What an error spoils (R15, R241, I13): PBUF, PLEN, FBUF, FLEN, RXID, RXNUM and RXLEN are free from here on, and every
value in SLOT_OUT is gone (log 9, log 10). -/
def spoil (s : State) : State :=
  { s with
    pbuf := freeBuffer s.freeCtr
    plen := (Config.freeLength s.freeCtr).val
    fbuf := freeBuffer (s.freeCtr + 1)
    flen := (Config.freeLength (s.freeCtr + 1)).val
    rxid := Config.freeByte (s.freeCtr + 2) 0
    rxnum := Config.freeByte (s.freeCtr + 2) 1
    rxlen := Config.freeByte (s.freeCtr + 2) 2
    slotOut := s.slotOut.map (Option.map OutSlot.drop)
    idOk := false
    outOk := false
    freeCtr := s.freeCtr + 3 }

/-- Taking an error: `raise Kind(info)` (R240). ERR is written; RXS becomes FAIL if `FRM.DEC` is running; SES becomes
Failed inside `SES.CALL`; the operation ends with no other output, and what R241 says is spoiled. There is no return from
an error: the next operation starts with `startOp` (R242). -/
def raised (e : Err) (s : State) : State :=
  { spoil s with
    err := e
    result := .none
    rxs := if s.act.isFrameDec then .fail else s.rxs
    ses := if s.act.inCall then .failed else s.ses
    act := .idle }

/-- `raise` as an outcome: the error outcome is a next state of the machine. -/
def raise (e : Err) (s : State) : Out := .next (raised e s)

/-- `IllegalOp`: the request is refused and no state other than ERR changes (R234). -/
def illegal (s : State) : State := { s with err := .illegalOp }

/-- `MemRead(PBUF, 0, n)`, handed on; the fault names the first byte that holds no value (R29). -/
def withPbuf (n : Nat) (s : State) (k : List Byte → Out) : Out :=
  match Memory.readBytes s.pbuf 0 n with
  | some p => k p
  | none => .fault (.unwrittenByte .pbuf (Memory.firstUnwritten s.pbuf 0 n))

/-- `MemRead(FBUF, 0, n)`, handed on. -/
def withFbuf (n : Nat) (s : State) (k : List Byte → Out) : Out :=
  match Memory.readBytes s.fbuf 0 n with
  | some f => k f
  | none => .fault (.unwrittenByte .fbuf (Memory.firstUnwritten s.fbuf 0 n))

/-- The payload operand `p = MemRead(PBUF, 0, PLEN)` (R110, R140). -/
def withPayload (s : State) (k : List Byte → Out) : Out := withPbuf s.plen s k

/-- What `ChanRead` finds (R11): no answer yet, `fail`, or a byte; an answer is taken off the stream (R46). -/
inductive ChanRead where
  | wait
  | fail (s : State)
  | byte (b : Byte) (s : State)

/-- `ChanRead()`: destructive, one byte, counted as consumed in this decode (R46, R226). -/
def chanRead (s : State) : ChanRead :=
  match s.rx with
  | [] => .wait
  | .fail :: rest => .fail { s with rx := rest }
  | .byte b :: rest => .byte b { s with rx := rest, rxUsed := s.rxUsed + 1 }

/-- `ChanWrite(f)`: appends all of `f` in index order; it has no failure outcome (R46, D18; log 27). -/
def chanWrite (f : List Byte) (s : State) : State := { s with tx := s.tx ++ f }

/-- `TableLookup(cmd)` (R26). -/
def tableLookup (t : List CmdEntry) (cmd : List Byte) : Option Descriptor :=
  match t with
  | [] => none
  | e :: rest => if e.name = cmd then some e.desc else tableLookup rest cmd

/-- `emit(s)` of `FE.RUN` (R102), then the step to the next token: a write past BUFSZ does not happen and raises
`PayloadTooLong` (R43; the length it reports: log 13). -/
def emit (bs : List Byte) (s : State) : Out :=
  if s.pc + bs.length > Config.bufSz then raise (.payloadTooLong (s.pc + bs.length)) s
  else
    .next { s with
      pbuf := Memory.writeBytes s.pbuf s.pc bs
      pc := s.pc + bs.length
      tc := s.tc + 1 }

/-- `SLOT_OUT[SC] <- v; SC <- SC + 1`, then the step to the next token (R110). -/
def putSlot (v : SlotVal) (k : Kind) (s : State) : Out :=
  .next { s with
    slotOut := s.slotOut.set s.sc (some ⟨k, some v⟩)
    sc := s.sc + 1
    tc := s.tc + 1 }

end Sys2Proof.Machine
end

