-- ==== Sys2Proof/Machine/Operands.lean ====
section
/-! DEFINITION. The operands of the field operations: template tokens and their widths (spec/30_encoding.md R69, R70),
slots and the kinds a code takes (spec/41_field_codec.md R100, R101), field boundaries (R109, R111). -/

namespace Sys2Proof.Machine

/-- What a template byte is (R69). -/
inductive Token where
  | typed (c : FieldCode)
  | lit (k : Byte)
  deriving DecidableEq, Repr

/-- The class of a template byte: five typed codes, every other byte a literal, whatever LEGACY_CODES would have been
(R69, R77, R128). -/
def classify (k : Byte) : Token :=
  if k = 0x57#8 then .typed .w
  else if k = 0x42#8 then .typed .b
  else if k = 0x54#8 then .typed .t
  else if k = 0x51#8 then .typed .q
  else if k = 0x71#8 then .typed .qs
  else .lit k

/-- The typed codes of a template, in order. -/
def typedCodes : List Byte → List FieldCode
  | [] => []
  | k :: t =>
    match classify k with
    | .typed c => c :: typedCodes t
    | .lit _ => typedCodes t

/-- Fixed widths: W 4, Q 14, q 17; B and T have none (R70). -/
def fixedWidth : FieldCode → Option Nat
  | .w => some 4
  | .q => some 14
  | .qs => some 17
  | .b => none
  | .t => none

/-- Whether a template byte is a typed code. -/
def isTyped (k : Byte) : Bool :=
  match classify k with
  | .typed _ => true
  | .lit _ => false

/-- Whether a template byte is a variable-width code. -/
def isVariable (k : Byte) : Bool :=
  match classify k with
  | .typed c => (fixedWidth c).isNone
  | .lit _ => false

/-- The known width of a token: a literal counts 1 (R111 (b)); a variable-width token has none and is never summed
in a decodable template (R109). -/
def tokenWidth (k : Byte) : Nat :=
  match classify k with
  | .typed c => (fixedWidth c).getD 0
  | .lit _ => 1

/-- The summed known widths of a run of tokens (R111 (b)). -/
def tailWidth : List Byte → Nat
  | [] => 0
  | k :: t => tokenWidth k + tailWidth t

/-- The position of the first token that makes a template not decodable (R109): a variable-width token whose next token
is a typed code while some later token is variable-width. `i` is the position of the head. Where there are several the
leftmost is reported (DEDUCED, log 34). -/
def firstUndecodable (i : Nat) : List Byte → Option Nat
  | [] => none
  | [_] => none
  | k :: k' :: t =>
    if isVariable k && isTyped k' && (k' :: t).any isVariable then some i
    else firstUndecodable (i + 1) (k' :: t)

/-- A template is decodable (R109). -/
def decodable (t : List Byte) : Bool := (firstUndecodable 0 t).isNone

/-- The kind of a slot value (R15). -/
def SlotVal.kind : SlotVal → Kind
  | .int _ => .int
  | .real _ _ => .real
  | .text _ => .text
  | .char _ => .char
  | .datetime _ => .datetime

/-- Which kinds a typed code takes, encoding and decoding alike (R100). -/
def accepts : FieldCode → Kind → Bool
  | .w, .int => true
  | .b, .int => true
  | .b, .real => true
  | .t, .text => true
  | .t, .char => true
  | .q, .datetime => true
  | .qs, .datetime => true
  | _, _ => false

/-- `SLOT_IN[i]`: no value for `i >= IN_CNT` or where the host has written none (R15). -/
def slotInVal (s : State) (i : Nat) : Option SlotVal :=
  if i < s.inCnt then (s.slotIn[i]?).join else none

/-- The kind of `SLOT_IN[i]`. -/
def slotInKind (s : State) (i : Nat) : Option Kind := (slotInVal s i).map SlotVal.kind

/-- The kind of placeholder `SLOT_OUT[i]`: none for `i >= OUT_CNT` or where the host has written none (R14, R15). -/
def slotOutKind (s : State) (i : Nat) : Option Kind :=
  if i < s.outCnt then ((s.slotOut[i]?).join).map OutSlot.kind else none

/-- The pairing check: the first typed token whose slot does not suit it (R101 (3)). -/
def pairing (kindOf : Nat → Option Kind) (i : Nat) : List FieldCode → Option ParamInfo
  | [] => none
  | c :: cs =>
    match kindOf i with
    | none => some (.slot i c none)
    | some k => if accepts c k then pairing kindOf (i + 1) cs else some (.slot i c (some k))

/-- Checks (2) and (3) of R101, in that order. -/
def paramCheck (kindOf : Nat → Option Kind) (given : Nat) (t : List Byte) : Option ParamInfo :=
  if (typedCodes t).length = given then pairing kindOf 0 (typedCodes t)
  else some (.count (typedCodes t).length given)

/-- The static checks of `FE.RUN` (R101). -/
def staticEnc (s : State) (t : List Byte) : Option Err :=
  (paramCheck (slotInKind s) s.inCnt t).map .paramMismatch

/-- The static checks of `FD.RUN` (R101): decodable first. -/
def staticDec (s : State) (t : List Byte) : Option Err :=
  match firstUndecodable 0 t with
  | some i => some (.templateRefused i)
  | none => (paramCheck (slotOutKind s) s.outCnt t).map .paramMismatch

/-- `width(i, c)` (R111) for a typed code whose later tokens are `rest`, in payload `p` at cursor `c`. -/
def fieldWidth (code : FieldCode) (rest : List Byte) (p : List Byte) (c : Nat) : Except DecodeInfo Nat :=
  match fixedWidth code with
  | some w => if c + w > p.length then .error (.short c code) else .ok w
  | none =>
    match rest with
    | [] => .ok (p.length - c)
    | k :: _ =>
      match classify k with
      | .lit l =>
        match (p.drop c).findIdx? (fun b => b == l) with
        | some d => .ok d
        | none => .error (.expected p.length none l)
      | .typed _ =>
        if p.length - c < tailWidth rest then .error (.short c code)
        else .ok (p.length - c - tailWidth rest)

end Sys2Proof.Machine
end

