-- ==== Sys2Proof/Machine/FieldEncode.lean ====
section
/-! DEFINITION. FLD, encoding: `FE.RUN` and its token operations (spec/41_field_codec.md R102 to R108). -/

namespace Sys2Proof.Machine

/-- The start of `FE.RUN(t)`: the static checks of R101, then the cursors to 0 (R102, R17). -/
def startFieldEnc (inCall : Bool) (t : List Byte) (s : State) : Out :=
  match staticEnc s t with
  | some e => raise e { s with act := .fieldEnc inCall }
  | none =>
    .next { s with act := .fieldEnc inCall, tmpl := t, tc := 0, pc := 0, sc := 0 }

/-- `FE.RUN` from the host port (R102). -/
def execFeRun (s : State) : Out := startFieldEnc false s.opnd.template (startOp s)

/-- The end of `FE.RUN`: `PLEN <- PC` (R102). Inside `SES.CALL` the length check of FRM.ENC follows, before the id is
taken (R201, corner case 1). -/
def finishFieldEnc (inCall : Bool) (s : State) : Out :=
  if inCall then
    if s.pc > s.cfg.payloadMax then raise (.payloadTooLong s.pc) { s with plen := s.pc }
    else .next { s with plen := s.pc, act := .callNextId }
  else .next (deliver .done { s with plen := s.pc })

/-- One typed token of `FE.RUN`: `v <- SLOT_IN[SC]; SC <- SC + 1; emit(FE.k(v))` (R102). `f` gives the bytes of a value
of an accepted kind, or `none` where the text form cannot hold it (R228). -/
def feTyped (code : FieldCode) (f : SlotVal → Option (List Byte)) (s : State) : Out :=
  match slotInVal s s.sc with
  | none => raise (.paramMismatch (.slot s.sc code none)) s
  | some v =>
    if accepts code v.kind then
      match f v with
      | some bs => emit bs { s with sc := s.sc + 1 }
      | none => raise (.encodeRange s.sc code v) { s with sc := s.sc + 1 }
    else raise (.paramMismatch (.slot s.sc code (some v.kind))) s

/-- `FE.LIT(k)` (R103): the byte itself, no slot. -/
def execFeLit (k : Byte) (s : State) : Out := emit [k] s

/-- `FE.W(v)` (R104). -/
def bytesW : SlotVal → Option (List Byte)
  | .int v => if 0 ≤ v ∧ v ≤ 65535 then some (hex4 (BitVec.ofNat 16 v.toNat)) else none
  | _ => none

/-- `FE.W` (R104). -/
def execFeW (s : State) : Out := feTyped .w bytesW s

/-- The bounds of a signed quantity of `n` bits (R15). -/
def inBounds (n : Nat) (v : Int) : Bool := decide (-(2 ^ (n - 1) : Int) ≤ v ∧ v < (2 ^ (n - 1) : Int))

/-- `sign(x)` (R105). -/
def signBytes (v : Int) : List Byte := if v < 0 then [0x2D#8] else []

/-- `FE.B(v)` (R105): the text form of an INT or a REAL within the bounds of R15. -/
def bytesB (c : Config.Configuration) : SlotVal → Option (List Byte)
  | .int v => if inBounds c.intBits v then some (signBytes v ++ dec v.natAbs) else none
  | .real m d =>
    if inBounds c.realMantBits m ∧ d ≤ c.realMaxScale then
      some (signBytes m ++ dec (m.natAbs / 10 ^ d) ++ (if d = 0 then [] else 0x2E#8 :: decPad (m.natAbs % 10 ^ d) d))
    else none
  | _ => none

/-- `FE.B` (R105). -/
def execFeB (s : State) : Out := feTyped .b (bytesB s.cfg) s

/-- `esc(b)` (R106, R73). -/
def escByte (b : Byte) : List Byte := if b.toNat < Config.escLim then [Config.esc, b + Config.escOff] else [b]

/-- The escaped text (R106). -/
def escape : List Byte → List Byte
  | [] => []
  | b :: bs => escByte b ++ escape bs

/-- `FE.T(v)` (R106): a CHAR is the one-byte text. -/
def bytesT : SlotVal → Option (List Byte)
  | .text s => some (escape s)
  | .char c => some (escape [c])
  | _ => none

/-- `FE.T` (R106). -/
def execFeT (s : State) : Out := feTyped .t bytesT s

/-- The 14 bytes `DD-MM-YY HH-MM` (R107, R74). -/
def dateBytes (v : DateTime) : List Byte :=
  dec2 v.day ++ [0x2D#8] ++ dec2 v.month ++ [0x2D#8] ++ dec2 (v.year.val % 100) ++ [0x20#8] ++ dec2 v.hour ++ [0x2D#8] ++
    dec2 v.minute

/-- `FE.Q(v)` (R107): `second` is ignored, no calendar check. -/
def bytesQ : SlotVal → Option (List Byte)
  | .datetime v =>
    if v.day > 99 ∨ v.month > 99 ∨ v.hour > 99 ∨ v.minute > 99 then none else some (dateBytes v)
  | _ => none

/-- `FE.Q` (R107). -/
def execFeQ (s : State) : Out := feTyped .q bytesQ s

/-- `FE.q(v)` (R108). -/
def bytesQs : SlotVal → Option (List Byte)
  | .datetime v =>
    if v.day > 99 ∨ v.month > 99 ∨ v.hour > 99 ∨ v.minute > 99 ∨ v.second > 99 then none
    else some (dateBytes v ++ [0x2D#8] ++ dec2 v.second)
  | _ => none

/-- `FE.q` (R108). -/
def execFeQs (s : State) : Out := feTyped .qs bytesQs s

/-- The bytes of one typed field (R104 to R108), or `none` for a value its text form cannot hold. -/
def fieldBytes (c : Config.Configuration) : FieldCode → SlotVal → Option (List Byte)
  | .w, v => bytesW v
  | .b, v => bytesB c v
  | .t, v => bytesT v
  | .q, v => bytesQ v
  | .qs, v => bytesQs v

/-- `FE.RUN` as one function (R102): the payload a template and a list of slot values make. The steps of the token loop
compute it; it is the clear form that statements use. -/
def encodeAll (c : Config.Configuration) : List Byte → List SlotVal → Option (List Byte)
  | [], [] => some []
  | [], _ :: _ => none
  | k :: t, vs =>
    match classify k, vs with
    | .lit b, vs => (encodeAll c t vs).map fun bs => b :: bs
    | .typed _, [] => none
    | .typed code, v :: vs =>
      if accepts code v.kind then
        match fieldBytes c code v, encodeAll c t vs with
        | some f, some bs => some (f ++ bs)
        | _, _ => none
      else none

end Sys2Proof.Machine
end

