-- ==== Sys2Proof/Machine/FieldDecode.lean ====
section
/-! DEFINITION. FLD, decoding: `FD.RUN`, its token operations and the escape pair (spec/41_field_codec.md R109 to
R119). -/

namespace Sys2Proof.Machine

/-- The start of `FD.RUN(t)`: the static checks of R101, then the cursors to 0 (R110, R17). The payload is what PBUF
holds, which after an error is free (R241; log 9). -/
def startFieldDec (inCall : Bool) (t : List Byte) (s : State) : Out :=
  match staticDec s t with
  | some e => raise e { s with act := .fieldDec inCall }
  | none =>
    .next { s with act := .fieldDec inCall, tmpl := t, tc := 0, pc := 0, sc := 0, outOk := false }

/-- `FD.RUN` from the host port (R110). -/
def execFdRun (s : State) : Out := startFieldDec false s.opnd.template (startOp s)

/-- The end of `FD.RUN`: left-over payload raises (R110, R119). Inside `SES.CALL` the call is then `Decoded` (R201). -/
def finishFieldDec (inCall : Bool) (s : State) : Out :=
  if s.pc ≠ s.plen then raise (.decodeMismatch (.trailing s.pc)) s
  else if inCall then .next (deliver (.response s.rxid s.rxnum s.sr) { s with outOk := true, ses := .decoded })
  else .next (deliver .done { s with outOk := true })

/-- `FD.LIT(k)` (R112). -/
def execFdLit (k : Byte) (s : State) : Out :=
  withPayload s fun p =>
    match p[s.pc]? with
    | none => raise (.decodeMismatch (.expected s.pc none k)) s
    | some b =>
      if b = k then .next { s with pc := s.pc + 1, tc := s.tc + 1 }
      else raise (.decodeMismatch (.expected s.pc (some b) k)) s

/-- One typed token of `FD.RUN` (R110): the width, `raw`, `PC <- PC + w`, then `FD.k(raw, kind)`. -/
def fdTyped (code : FieldCode) (f : List Byte → Kind → State → Out) (s : State) : Out :=
  withPayload s fun p =>
    match fieldWidth code (s.tmpl.drop (s.tc + 1)) p s.pc with
    | .error e => raise (.decodeMismatch e) s
    | .ok w =>
      match slotOutKind s s.sc with
      | none => raise (.paramMismatch (.slot s.sc code none)) { s with pc := s.pc + w }
      | some k =>
        if accepts code k then f ((p.drop s.pc).take w) k { s with pc := s.pc + w }
        else raise (.paramMismatch (.slot s.sc code (some k))) { s with pc := s.pc + w }

/-- The digits of `FD.W` (R113), left to right: the value so far, or the first byte that is no digit. -/
def unhexAll (acc : Nat) : List Byte → Except Byte Nat
  | [] => .ok acc
  | b :: bs =>
    match unhex b with
    | some x => unhexAll (acc * 16 + x) bs
    | none => .error b

/-- `FD.W(raw, INT)` (R113). -/
def fieldW (raw : List Byte) (k : Kind) (s : State) : Out :=
  match unhexAll 0 raw with
  | .ok v => putSlot (.int (v : Int)) k s
  | .error b => raise (.decodeMismatch (.parseByte .w b)) s

/-- `FD.W` (R113). -/
def execFdW (s : State) : Out := fdTyped .w fieldW s

/-- A numeral of R75 taken apart: its sign, the digits before the point, the digits after it if there is a point. -/
structure Numeral where
  neg : Bool
  ip : List Byte
  fp : Option (List Byte)
  deriving DecidableEq, Repr

/-- The unsigned part of the grammar of R75. -/
def parseUnsigned (neg : Bool) (u : List Byte) : Option Numeral :=
  if (u.takeWhile isDigit).isEmpty then none
  else
    match u.dropWhile isDigit with
    | [] => some ⟨neg, u.takeWhile isDigit, none⟩
    | b :: f =>
      if b = 0x2E#8 ∧ f ≠ [] ∧ f.all isDigit = true then some ⟨neg, u.takeWhile isDigit, some f⟩ else none

/-- The grammar of R75: `sign? digits ('.' digits)?`. -/
def parseNumeral : List Byte → Option Numeral
  | [] => none
  | b :: u => if b = 0x2D#8 then parseUnsigned true u else parseUnsigned false (b :: u)

/-- A magnitude with its sign. -/
def signed (neg : Bool) (mag : Nat) : Int := if neg then -(mag : Int) else (mag : Int)

/-- `FD.B(raw, kind)` (R114) on the unescaped text: the value, or `none` where it does not parse. -/
def valueB (c : Config.Configuration) (k : Kind) (u : List Byte) : Option SlotVal :=
  match parseNumeral u with
  | none => none
  | some n =>
    match k, n.fp with
    | .int, none =>
      if inBounds c.intBits (signed n.neg (decValue n.ip)) then some (.int (signed n.neg (decValue n.ip))) else none
    | .real, none =>
      if inBounds c.realMantBits (signed n.neg (decValue n.ip)) then some (.real (signed n.neg (decValue n.ip)) 0)
      else none
    | .real, some f =>
      if f.length ≤ c.realMaxScale ∧ inBounds c.realMantBits (signed n.neg (decValue (n.ip ++ f))) then
        some (.real (signed n.neg (decValue (n.ip ++ f))) f.length)
      else none
    | _, _ => none

/-- `FD.T(raw, kind)` (R115) on the unescaped text: a CHAR takes exactly one byte. -/
def valueT (k : Kind) (u : List Byte) : Option SlotVal :=
  match k, u with
  | .text, u => some (.text u)
  | .char, [c] => some (.char c)
  | _, _ => none

/-- The field code of a variable-width code. -/
def VarCode.code : VarCode → FieldCode
  | .b => .b
  | .t => .t

/-- The value of an unescaped field of a variable-width code. -/
def valueOf (c : Config.Configuration) (vc : VarCode) (k : Kind) (u : List Byte) : Option SlotVal :=
  match vc with
  | .b => valueB c k u
  | .t => valueT k u

/-- The end of `FD.B` or `FD.T`: the unescaped field is parsed and its slot filled (R114, R115). -/
def finishField (vc : VarCode) (u : List Byte) (s : State) : Out :=
  match slotOutKind s s.sc with
  | none => raise (.paramMismatch (.slot s.sc vc.code none)) s
  | some k =>
    match valueOf s.cfg vc k u with
    | some v => putSlot v k { s with act := .fieldDec s.act.inCall }
    | none => raise (.decodeMismatch (.parseText vc.code u)) s

/-- The bytes up to the next escape marker. -/
def plainRun (bs : List Byte) : List Byte := bs.takeWhile fun b => b != Config.esc

/-- `unescape` (R116) from index `j` with `u` produced so far: the bytes up to the next escape marker pass unchanged;
at a marker the next step is the instruction ESC; at the end of the field its slot is filled. -/
def resumeField (vc : VarCode) (raw : List Byte) (j : Nat) (u : List Byte) (s : State) : Out :=
  if (plainRun (raw.drop j)).length = (raw.drop j).length then finishField vc (u ++ raw.drop j) s
  else
    .next { s with
      act := .unescape s.act.inCall vc
      fldRaw := raw
      fldJ := j + (plainRun (raw.drop j)).length
      fldU := u ++ plainRun (raw.drop j) }

/-- `FD.B` (R114). -/
def execFdB (s : State) : Out := fdTyped .b (fun raw _ s' => resumeField .b raw 0 [] s') s

/-- `FD.T` (R115). -/
def execFdT (s : State) : Out := fdTyped .t (fun raw _ s' => resumeField .t raw 0 [] s') s

/-- The code of the field being unescaped. -/
def Activity.varCode : Activity → VarCode
  | .unescape _ vc => vc
  | _ => .t

/-- The payload index of the field being unescaped: PC stands after it (R110). -/
def fieldStart (s : State) : Nat := s.pc - s.fldRaw.length

/-- ESC (R116): the escape marker at index `j` of the field takes the following byte and yields that byte minus 64. A
marker that is the last byte, or followed by a byte below 64, raises (positions: log 12). -/
def execEsc (s : State) : Out :=
  match s.fldRaw[s.fldJ + 1]? with
  | none => raise (.decodeMismatch (.escape (fieldStart s + s.fldJ) none)) s
  | some x =>
    if x.toNat < 64 then raise (.decodeMismatch (.escape (fieldStart s + s.fldJ + 1) (some x))) s
    else resumeField s.act.varCode s.fldRaw (s.fldJ + 2) (s.fldU ++ [x - Config.escOff]) s

/-- `unescape(raw)` as one function (R116): the text, or the index and byte of the bad escape pair. The steps of ESC
compute it; it is the clear form that statements use. -/
def unescape : Nat → List Byte → Except (Nat × Option Byte) (List Byte)
  | _, [] => .ok []
  | j, [b] => if b = Config.esc then .error (j, none) else .ok [b]
  | j, b :: x :: rest =>
    if b = Config.esc then
      if x.toNat < 64 then .error (j + 1, some x)
      else (unescape (j + 2) rest).map (fun u => (x - Config.escOff) :: u)
    else (unescape (j + 1) (x :: rest)).map (fun u => b :: u)

/-- One position of a date-time layout (R74): a digit or a separator byte. -/
inductive DatePos where
  | digit
  | sep (b : Byte)
  deriving DecidableEq, Repr

/-- The layout `DD-MM-YY HH-MM` (R74). -/
def layoutQ : List DatePos :=
  [.digit, .digit, .sep 0x2D#8, .digit, .digit, .sep 0x2D#8, .digit, .digit, .sep 0x20#8, .digit, .digit, .sep 0x2D#8,
   .digit, .digit]

/-- The layout `DD-MM-YY HH-MM-SS` (R74). -/
def layoutQs : List DatePos := layoutQ ++ [.sep 0x2D#8, .digit, .digit]

/-- The offsets of a date-time field checked in order (R117): the first that does not hold what it must. -/
def checkLayout (code : FieldCode) (pos : Nat) : List DatePos → List Byte → Option DecodeInfo
  | [], _ => none
  | _ :: _, [] => some (.short pos code)
  | .digit :: l, b :: raw => if isDigit b then checkLayout code (pos + 1) l raw else some (.parseAt code pos b)
  | .sep w :: l, b :: raw => if b = w then checkLayout code (pos + 1) l raw else some (.expected pos (some b) w)

/-- `num(o)` (R117). -/
def num2 (raw : List Byte) (o : Nat) : Nat := digitVal (raw.getD o 0) * 10 + digitVal (raw.getD (o + 1) 0)

/-- `FD.Q(raw, DATETIME)` (R117) and `FD.q` (R118): the checked field as a DATETIME. -/
def fieldDate (code : FieldCode) (layout : List DatePos) (secs : List Byte → Nat) (raw : List Byte) (k : Kind)
    (s : State) : Out :=
  match checkLayout code (s.pc - raw.length) layout raw with
  | some e => raise (.decodeMismatch e) s
  | none => 
    putSlot (.datetime ⟨num2 raw 0, num2 raw 3, Fin.ofNat 65536 (num2 raw 6), num2 raw 9, num2 raw 12, secs raw⟩) k s

/-- `FD.Q` (R117): second = 0. -/
def execFdQ (s : State) : Out := fdTyped .q (fieldDate .q layoutQ fun _ => 0) s

/-- `FD.q` (R118). -/
def execFdQs (s : State) : Out := fdTyped .qs (fieldDate .qs layoutQs fun raw => num2 raw 15) s

end Sys2Proof.Machine
end

