-- ==== Sys2Proof/Machine/Flags.lean ====
section
/-! DEFINITION. The status flags: pure functions of the six status bytes and STATUS_MAP (spec/30_encoding.md R76,
spec/43_device_status.md R170, R193, R194, R196), and the retry predicate (spec/44_command_session.md R203). -/

namespace Sys2Proof.Machine

open Config

/-- `b[i]` of a status block. -/
def statusByte (st : DeviceStatus) (i : Fin 6) : Byte :=
  match i with
  | 0 => st.b0
  | 1 => st.b1
  | 2 => st.b2
  | 3 => st.b3
  | 4 => st.b4
  | 5 => st.b5

/-- `(b[i] & (1 << bit)) != 0` (R76). -/
def bitSet (st : DeviceStatus) (p : BitPos) : Bool :=
  (statusByte st p.byte &&& (1#8 <<< p.bit.val)) != 0#8

/-- `ST.FLAG name (b)` (R170). -/
def flagOf (m : StatusMap) (f : Flag) (st : DeviceStatus) : Bool := bitSet st (m.pos f)

/-- `ST.HASERR (b)`: any of the 14 error flags (R193). -/
def hasErr (m : StatusMap) (st : DeviceStatus) : Bool := errorFlags.any fun f => flagOf m f st

/-- `ST.HASWARN (b)`: any of the 5 warning flags (R194). -/
def hasWarn (m : StatusMap) (st : DeviceStatus) : Bool := warningFlags.any fun f => flagOf m f st

/-- `RETRY_PRED(st)` (R203). -/
def predHolds : StatusPred → DeviceStatus → Bool
  | .const b, _ => b
  | .bit p, st => bitSet st p
  | .neg a, st => !predHolds a st
  | .both a b, st => predHolds a st && predHolds b st

end Sys2Proof.Machine
end

