-- ==== Sys2Proof/Machine/Checksum.lean ====
section
/-! DEFINITION. CHK, the checksum unit: `BCC.SUM`, `BCC.RENDER`, `BCC.VERIFY` (spec/40_checksum.md). -/

namespace Sys2Proof.Machine

/-- `cov(st)` for the coverage in force (R94). -/
def bccCov (c : Config.Coverage) : Option DeviceStatus → Nat
  | none => 0
  | some st =>
    match c with
    | .block => byteSum st.toList
    | .none => 0
    | .markerAndBlock => Config.stmark.toNat + byteSum st.toList

/-- `BCC.SUM(h, p, st)` (R90): reduced modulo 65536 by the width of the result. -/
def bccSum (c : Config.Coverage) (h p : List Byte) (st : Option DeviceStatus) : BitVec 16 :=
  BitVec.ofNat 16 (Config.bccSeed + byteSum h + byteSum p + bccCov c st)

/-- `BCC.RENDER(s)` (R91): high nibble first. -/
def bccRender (s : BitVec 16) : Quad :=
  ⟨bccDigit (s.extractLsb 15 12), bccDigit (s.extractLsb 11 8), bccDigit (s.extractLsb 7 4),
   bccDigit (s.extractLsb 3 0)⟩

/-- The digits a frame must carry. -/
def bccDigits (c : Config.Coverage) (h p : List Byte) (st : Option DeviceStatus) : Quad := bccRender (bccSum c h p st)

/-- The status operand of the CHK operations: `none` or the six bytes (R90). -/
def Operands.st (o : Operands) : Option DeviceStatus := if o.hasStatus then some o.status else none

/-- `BCC.SUM` from the host port (R90). -/
def execBccSum (s : State) : Out :=
  .next { startOp s with result := .sum (bccSum s.cfg.coverage s.opnd.h.toList s.opnd.p s.opnd.st) }

/-- `BCC.RENDER` from the host port (R91). -/
def execBccRender (s : State) : Out := .next { startOp s with result := .digits (bccRender s.opnd.s) }

/-- `BCC.VERIFY` from the host port (R92): the bytes are compared, never parsed. -/
def execBccVerify (s : State) : Out :=
  if bccDigits s.cfg.coverage s.opnd.h.toList s.opnd.p s.opnd.st = s.opnd.r then
    .next { startOp s with result := .verified }
  else
    raise (.checksumMismatch (bccDigits s.cfg.coverage s.opnd.h.toList s.opnd.p s.opnd.st) s.opnd.r) s

end Sys2Proof.Machine
end

