-- ==== Sys2Proof/Machine/FrameCodec.lean ====
section
/-! DEFINITION. FRM, the frame codec: `FRM.ENC`, `FRM.DEC`, the receive machine and its first-byte and structural-byte
operations (spec/42_frame_codec.md). -/

namespace Sys2Proof.Machine

/-- The bytes of a frame (R140, R141): header, payload, for a device frame the marker and the block, the terminator,
the digits, the frame terminator. -/
def frameBytes (c : Config.Coverage) (id num : Byte) (p : List Byte) (st : Option DeviceStatus) : List Byte :=
  match st with
  | none =>
    [Config.start, BitVec.ofNat 8 (Config.lenBase + p.length), id, num] ++ p ++ [Config.pterm] ++
      (bccDigits c [Config.start, BitVec.ofNat 8 (Config.lenBase + p.length), id, num] p none).toList ++ [Config.fterm]
  | some b =>
    [Config.start, BitVec.ofNat 8 (Config.lenBase + p.length + Config.statusPart), id, num] ++ p ++ [Config.stmark] ++
      b.toList ++ [Config.pterm] ++
      (bccDigits c [Config.start, BitVec.ofNat 8 (Config.lenBase + p.length + Config.statusPart), id, num] p
        (some b)).toList ++ [Config.fterm]

/-- The length payload `P` of a frame with `n` field-payload bytes (R63). -/
def lengthPayload (n : Nat) (st : Option DeviceStatus) : Nat :=
  match st with
  | none => n
  | some _ => n + Config.statusPart

/-- `FRM.ENC` (R140, R141): refused with `PayloadTooLong(n)` where the length byte cannot hold `36 + P`, else the frame
is put at FBUF[0] and handed on. EXPST is latched (R20). -/
def frameEncode (id num : Byte) (st : Option DeviceStatus) (s : State) (k : List Byte → State → Out) : Out :=
  if lengthPayload s.plen st > s.cfg.payloadMax then raise (.payloadTooLong s.plen) { s with expst := st.isSome }
  else
    withPayload s fun p =>
      k (frameBytes s.cfg.coverage id num p st)
        { s with
          expst := st.isSome
          fbuf := Memory.writeBytes s.fbuf 0 (frameBytes s.cfg.coverage id num p st)
          flen := (frameBytes s.cfg.coverage id num p st).length }

/-- `FRM.ENC(id, num)`, EXPST = 0, from the host port (R140). -/
def execFrmEncHost (s : State) : Out :=
  frameEncode s.opnd.id s.opnd.num none (startOp s) fun f s' => .next { s' with result := .frame f }

/-- `FRM.ENC(id, num, st)`, EXPST = 1, from the host port (R141). -/
def execFrmEncDevice (s : State) : Out :=
  frameEncode s.opnd.id s.opnd.num (some s.opnd.status) (startOp s) fun f s' => .next { s' with result := .frame f }

/-- The start of `FRM.DEC` (R142): `WAIT_START`, BUSYCNT and FLEN 0, EXPST latched. -/
def startFrameDec (inCall expst : Bool) (s : State) : State :=
  { s with
    act := .frameDec inCall
    expst := expst
    rxs := .waitStart
    rxcnt := 1
    busycnt := 0
    flen := 0
    rxUsed := 0
    idOk := false }

/-- `FRM.DEC` from the host port (R142). -/
def execFrmDec (expst : Bool) (s : State) : Out := .next (startFrameDec false expst (startOp s))

/-- The least length byte (R145). -/
def lenMin (s : State) : Nat := if s.expst then Config.lenBase + Config.statusPart else Config.lenBase

/-- `n`, the number of field-payload bytes of the frame being decoded (R145). -/
def rxN (s : State) : Nat := s.rxlen.toNat - lenMin s

/-- `q`, the frame index of the payload terminator (R149). -/
def rxQ (s : State) : Nat := 4 + rxN s + (if s.expst then Config.statusPart else 0)

/-- RX.START (R143): the start marker is stored, the header comes next. -/
def execRxStart (s : State) : Out :=
  .next { s with fbuf := Memory.write s.fbuf 0 Config.start, rxs := .hdr, rxcnt := 3 }

/-- RX.NAK (R143, R223): the decode fails at once. -/
def execRxNak (s : State) : Out := raise .protocolReject s

/-- RX.BUSY (R143): counted and absorbed; past BUSY_LIMIT it raises (R232). -/
def execRxBusy (s : State) : Out :=
  match s.cfg.busyLimit with
  | none => .next { s with busycnt := s.busycnt + 1 }
  | some l =>
    if s.busycnt + 1 > l then raise (.busyLimit (s.busycnt + 1)) { s with busycnt := s.busycnt + 1 }
    else .next { s with busycnt := s.busycnt + 1 }

/-- RX.BAD (R143): any other first byte fails; no hunting for a start marker. -/
def execRxBad (b : Byte) (s : State) : Out := raise (.malformedFrame 0 b (.byte Config.start)) s

/-- A byte in state HDR (R144): the three registers first, then FBUF[1..3] together, then the length check (R145). -/
def hdrByte (b : Byte) (s : State) : Out :=
  if s.rxcnt = 3 then .next { s with rxlen := b, rxcnt := 2 }
  else if s.rxcnt = 2 then .next { s with rxid := b, rxcnt := 1 }
  else if s.rxlen.toNat < lenMin s then
    raise (.malformedFrame 1 s.rxlen (.atLeast (lenMin s)))
      { s with rxnum := b, fbuf := Memory.writeBytes s.fbuf 1 [s.rxlen, s.rxid, b], rxcnt := 0 }
  else
    .next { s with
      rxnum := b
      fbuf := Memory.writeBytes s.fbuf 1 [s.rxlen, s.rxid, b]
      rxcnt := rxN s
      rxs := .payload }

/-- A byte in state PAYLOAD (R146): any value is data; byte `j` goes to PBUF[j] and FBUF[4 + j]. -/
def payloadByte (b : Byte) (s : State) : Out :=
  .next { s with
    pbuf := Memory.write s.pbuf (rxN s - s.rxcnt) b
    fbuf := Memory.write s.fbuf (4 + (rxN s - s.rxcnt)) b
    rxcnt := s.rxcnt - 1 }

/-- The end of state PAYLOAD (R146): `PLEN <- n`. -/
def payloadEnd (s : State) : Out :=
  .next { s with plen := rxN s, rxs := if s.expst then .stmark else .pterm, rxcnt := 1 }

/-- STMARK (R147): the status marker at frame index 4+n. -/
def execStmark (s : State) : Out :=
  .next { s with fbuf := Memory.write s.fbuf (4 + rxN s) Config.stmark, rxs := .status, rxcnt := 6 }

/-- A byte in state STATUS (R148): held in the temporary `st`, not yet in SR. -/
def statusByteIn (b : Byte) (s : State) : Out :=
  .next { s with
    rxSt := s.rxSt.setByte (6 - s.rxcnt) b
    fbuf := Memory.write s.fbuf (5 + rxN s + (6 - s.rxcnt)) b
    rxs := if s.rxcnt ≤ 1 then .pterm else .status
    rxcnt := if s.rxcnt ≤ 1 then 1 else s.rxcnt - 1 }

/-- PTERM (R149): the payload terminator at frame index q. -/
def execPterm (s : State) : Out :=
  .next { s with fbuf := Memory.write s.fbuf (rxQ s) Config.pterm, rxs := .bcc, rxcnt := 4 }

/-- A byte in state BCC (R150): stored as read. -/
def bccByte (b : Byte) (s : State) : Out :=
  .next { s with
    rxBcc := s.rxBcc.setByte (4 - s.rxcnt) b
    fbuf := Memory.write s.fbuf (rxQ s + 1 + (4 - s.rxcnt)) b
    rxs := if s.rxcnt ≤ 1 then .fterm else .bcc
    rxcnt := if s.rxcnt ≤ 1 then 1 else s.rxcnt - 1 }

/-- FTERM (R151): the frame terminator at frame index q + 5, and FLEN. -/
def execFterm (s : State) : Out :=
  .next { s with
    fbuf := Memory.write s.fbuf (rxQ s + 5) Config.fterm
    flen := rxQ s + 6
    rxs := .check
    rxcnt := 0 }

/-- The status block of the frame being decoded (R152). -/
def rxStatus (s : State) : Option DeviceStatus := if s.expst then some s.rxSt else none

/-- State CHECK (R152): `BCC.VERIFY(FBUF[0..<4], PBUF[0..<n], st or none, r)`. -/
def checkFrame (s : State) : Out :=
  withFbuf 4 s fun h =>
    withPbuf (rxN s) s fun p =>
      if bccDigits s.cfg.coverage h p (rxStatus s) = s.rxBcc then .next { s with rxs := .done }
      else raise (.checksumMismatch (bccDigits s.cfg.coverage h p (rxStatus s)) s.rxBcc) s

/-- State DONE (R153): with EXPST = 1 all six bytes of SR are written at once and SRV is set; RXID and RXNUM are now the
host's to read (R276). -/
def acceptFrame (s : State) : State :=
  { s with
    sr := if s.expst then s.rxSt else s.sr
    srv := s.expst || s.srv
    idOk := true }

/-- The end of `FRM.DEC`: its result goes to the host, or the call goes on to test the status (R153, R201). -/
def finishFrameDec (inCall : Bool) (s : State) : Out :=
  if inCall then .next { acceptFrame s with act := .callStatus }
  else withPayload s fun p => .next (deliver (.received s.rxid s.rxnum p (rxStatus s)) (acceptFrame s))

end Sys2Proof.Machine
end

