-- ==== Sys2Proof/Machine/Session.lean ====
section
/-! DEFINITION. SEQ, the command sequencer: `SES.NEXTID`, `SES.CALL` and its round trips (spec/44_command_session.md),
and the illegal selectors of the host port (spec/60_exceptions.md R234). -/

namespace Sys2Proof.Machine

/-- The id after `MID` (R200): 32 after 127. -/
def nextMid (m : Byte) : Byte := if m = Config.midMax then Config.midMin else m + 1#8

/-- `SES.NEXTID` (R200): the current id is the result, then the counter advances; the call goes on to its frame. -/
def execSesNextId (s : State) : Out :=
  .next { s with
    callId := s.mid
    mid := nextMid s.mid
    act := if s.act = .callNextId then .callFrame else s.act }

/-- `SES.CALL(cmd)` up to the label `round:` (R201). -/
def execSesCall (s : State) : Out :=
  match tableLookup s.table s.opnd.cmd with
  | none => raise (.unknownCommand s.opnd.cmd) { startOp s with ses := .idle, retrycnt := 0, act := .callRound }
  | some d => .next { startOp s with ses := .idle, retrycnt := 0, act := .callRound, desc := d }

/-- `round:` (R201): the sequencer is Sending. -/
def callRound (s : State) : Out := .next { s with ses := .sending, act := .callEncode }

/-- The request payload is encoded from SLOT_IN, in every round again (R201, D26). -/
def callEncode (s : State) : Out := startFieldEnc true s.desc.hostFormat s

/-- The request frame is built, EXPST = 0 (R201). -/
def callFrame (s : State) : Out :=
  frameEncode s.callId s.desc.number none s fun _ s' => .next { s' with act := .callWrite }

/-- The frame is written, then the response is awaited with EXPST = 1 (R201, R49). -/
def callWrite (s : State) : Out :=
  withFbuf s.flen s fun f =>
    .next (startFrameDec true true (chanWrite f { s with ses := .awaitingResponse }))

/-- The accepted response (R201): the retry predicate first, then the error flags, then the field decode. -/
def callStatus (s : State) : Out :=
  if predHolds s.cfg.retryPred s.sr then
    match s.cfg.retryLimit with
    | some l =>
      if s.retrycnt + 1 > l then
        raise (.retryLimit s.sr) { s with ses := .retryRequested, retrycnt := s.retrycnt + 1 }
      else .next { s with ses := .retryRequested, retrycnt := s.retrycnt + 1, act := .callRound }
    | none => .next { s with ses := .retryRequested, retrycnt := s.retrycnt + 1, act := .callRound }
  else if hasErr s.cfg.statusMap s.sr then raise (.deviceStatusError s.sr) s
  else startFieldDec true s.desc.deviceFormat s

/-- `op_sel` 0x0 (R234). -/
def execIllegal0 (s : State) : Out := .next (illegal s)
/-- `op_sel` 0xC (R234). -/
def execIllegalC (s : State) : Out := .next (illegal s)
/-- `op_sel` 0xD (R234). -/
def execIllegalD (s : State) : Out := .next (illegal s)
/-- `op_sel` 0xE (R234). -/
def execIllegalE (s : State) : Out := .next (illegal s)
/-- `op_sel` 0xF (R234). -/
def execIllegalF (s : State) : Out := .next (illegal s)

end Sys2Proof.Machine
end

