-- ==== Sys2Proof/Machine/StatusUnit.lean ====
section
/-! DEFINITION. STS, the device-status decoder: `ST.FLAG`, `ST.HASERR`, `ST.HASWARN` from the host port
(spec/43_device_status.md). -/

namespace Sys2Proof.Machine

/-- A status query from the host port: `b` is SR; refused with `ParamMismatch` while SRV = 0 (R170). A query that
is answered changes no state but ERR and the delivered result; a refused one is an error like any other (R241; log 11). -/
def statusQuery (f : DeviceStatus → Bool) (s : State) : Out :=
  if s.srv then .next { startOp s with result := .flag (f s.sr) }
  else raise (.paramMismatch .noStatus) s

/-- `ST.FLAG name` (R170). -/
def stFlagNamed (f : Flag) (s : State) : Out := statusQuery (flagOf s.cfg.statusMap f) s

/-- `ST.FLAG err_syntax` (R171). -/
def execStErrSyntax (s : State) : Out := stFlagNamed .errSyntax s
/-- `ST.FLAG err_mechanism` (R172). -/
def execStErrMechanism (s : State) : Out := stFlagNamed .errMechanism s
/-- `ST.FLAG err_date` (R173). -/
def execStErrDate (s : State) : Out := stFlagNamed .errDate s
/-- `ST.FLAG err_ribbon_out` (R174). -/
def execStErrRibbonOut (s : State) : Out := stFlagNamed .errRibbonOut s
/-- `ST.FLAG err_ribbon_control` (R175). -/
def execStErrRibbonControl (s : State) : Out := stFlagNamed .errRibbonControl s
/-- `ST.FLAG err_memory_full` (R176). -/
def execStErrMemoryFull (s : State) : Out := stFlagNamed .errMemoryFull s
/-- `ST.FLAG err_write` (R177). -/
def execStErrWrite (s : State) : Out := stFlagNamed .errWrite s
/-- `ST.FLAG err_read_only` (R178). -/
def execStErrReadOnly (s : State) : Out := stFlagNamed .errReadOnly s
/-- `ST.FLAG err_daily_report` (R179). -/
def execStErrDailyReport (s : State) : Out := stFlagNamed .errDailyReport s
/-- `ST.FLAG err_ram` (R180). -/
def execStErrRam (s : State) : Out := stFlagNamed .errRam s
/-- `ST.FLAG err_module_missing` (R181). -/
def execStErrModuleMissing (s : State) : Out := stFlagNamed .errModuleMissing s
/-- `ST.FLAG err_amount_too_big` (R182). -/
def execStErrAmountTooBig (s : State) : Out := stFlagNamed .errAmountTooBig s
/-- `ST.FLAG err_not_allowed` (R183). -/
def execStErrNotAllowed (s : State) : Out := stFlagNamed .errNotAllowed s
/-- `ST.FLAG err_memory_cleared` (R184). -/
def execStErrMemoryCleared (s : State) : Out := stFlagNamed .errMemoryCleared s
/-- `ST.FLAG warn_display_disconnected` (R185). -/
def execStWarnDisplayDisconnected (s : State) : Out := stFlagNamed .warnDisplayDisconnected s
/-- `ST.FLAG warn_cover_open` (R186). -/
def execStWarnCoverOpen (s : State) : Out := stFlagNamed .warnCoverOpen s
/-- `ST.FLAG warn_ribbon_low` (R187). -/
def execStWarnRibbonLow (s : State) : Out := stFlagNamed .warnRibbonLow s
/-- `ST.FLAG warn_control_ribbon_low` (R188). -/
def execStWarnControlRibbonLow (s : State) : Out := stFlagNamed .warnControlRibbonLow s
/-- `ST.FLAG warn_space_low` (R189). -/
def execStWarnSpaceLow (s : State) : Out := stFlagNamed .warnSpaceLow s
/-- `ST.FLAG fiscalized` (R190). -/
def execStFiscalized (s : State) : Out := stFlagNamed .fiscalized s
/-- `ST.FLAG fiscal_receipt_open` (R191). -/
def execStFiscalReceiptOpen (s : State) : Out := stFlagNamed .fiscalReceiptOpen s
/-- `ST.FLAG non_fiscal_receipt_open` (R192). -/
def execStNonFiscalReceiptOpen (s : State) : Out := stFlagNamed .nonFiscalReceiptOpen s

/-- The generic form of `ST.FLAG` (R170): the index names one of the 22 flags, and an index of 22 or more is
`IllegalOp` (R234). -/
def execStFlag (index : BitVec 5) (s : State) : Out :=
  match allFlags[index.toNat]? with
  | some f => stFlagNamed f s
  | none => .next (illegal s)

/-- `ST.HASERR` (R193). -/
def execStHasErr (s : State) : Out := statusQuery (hasErr s.cfg.statusMap) s

/-- `ST.HASWARN` (R194). -/
def execStHasWarn (s : State) : Out := statusQuery (hasWarn s.cfg.statusMap) s

end Sys2Proof.Machine
end

