-- ==== Sys2Proof/Machine/Dispatch.lean ====
section
/-! DEFINITION. The meaning of each instruction: one arm per constructor of Instr. -/

namespace Sys2Proof.Machine

def exec (i : Instr) (s : State) : Host.Outcome State Fault Refusal :=
  match i with
  | .bccSum => Sys2Proof.Machine.execBccSum s
  | .bccRender => Sys2Proof.Machine.execBccRender s
  | .bccVerify => Sys2Proof.Machine.execBccVerify s
  | .feRun => Sys2Proof.Machine.execFeRun s
  | .fdRun => Sys2Proof.Machine.execFdRun s
  | .frmEncHost => Sys2Proof.Machine.execFrmEncHost s
  | .frmEncDevice => Sys2Proof.Machine.execFrmEncDevice s
  | .frmDec expst => Sys2Proof.Machine.execFrmDec expst s
  | .stErrSyntax => Sys2Proof.Machine.execStErrSyntax s
  | .stErrMechanism => Sys2Proof.Machine.execStErrMechanism s
  | .stErrDate => Sys2Proof.Machine.execStErrDate s
  | .stErrRibbonOut => Sys2Proof.Machine.execStErrRibbonOut s
  | .stErrRibbonControl => Sys2Proof.Machine.execStErrRibbonControl s
  | .stErrMemoryFull => Sys2Proof.Machine.execStErrMemoryFull s
  | .stErrWrite => Sys2Proof.Machine.execStErrWrite s
  | .stErrReadOnly => Sys2Proof.Machine.execStErrReadOnly s
  | .stErrDailyReport => Sys2Proof.Machine.execStErrDailyReport s
  | .stErrRam => Sys2Proof.Machine.execStErrRam s
  | .stErrModuleMissing => Sys2Proof.Machine.execStErrModuleMissing s
  | .stErrAmountTooBig => Sys2Proof.Machine.execStErrAmountTooBig s
  | .stErrNotAllowed => Sys2Proof.Machine.execStErrNotAllowed s
  | .stErrMemoryCleared => Sys2Proof.Machine.execStErrMemoryCleared s
  | .stWarnDisplayDisconnected => Sys2Proof.Machine.execStWarnDisplayDisconnected s
  | .stWarnCoverOpen => Sys2Proof.Machine.execStWarnCoverOpen s
  | .stWarnRibbonLow => Sys2Proof.Machine.execStWarnRibbonLow s
  | .stWarnControlRibbonLow => Sys2Proof.Machine.execStWarnControlRibbonLow s
  | .stWarnSpaceLow => Sys2Proof.Machine.execStWarnSpaceLow s
  | .stFiscalized => Sys2Proof.Machine.execStFiscalized s
  | .stFiscalReceiptOpen => Sys2Proof.Machine.execStFiscalReceiptOpen s
  | .stNonFiscalReceiptOpen => Sys2Proof.Machine.execStNonFiscalReceiptOpen s
  | .stFlag index => Sys2Proof.Machine.execStFlag index s
  | .stHasErr => Sys2Proof.Machine.execStHasErr s
  | .stHasWarn => Sys2Proof.Machine.execStHasWarn s
  | .sesCall => Sys2Proof.Machine.execSesCall s
  | .illegal0 => Sys2Proof.Machine.execIllegal0 s
  | .illegalC => Sys2Proof.Machine.execIllegalC s
  | .illegalD => Sys2Proof.Machine.execIllegalD s
  | .illegalE => Sys2Proof.Machine.execIllegalE s
  | .illegalF => Sys2Proof.Machine.execIllegalF s
  | .sesNextId => Sys2Proof.Machine.execSesNextId s
  | .feW => Sys2Proof.Machine.execFeW s
  | .fdW => Sys2Proof.Machine.execFdW s
  | .feB => Sys2Proof.Machine.execFeB s
  | .fdB => Sys2Proof.Machine.execFdB s
  | .feT => Sys2Proof.Machine.execFeT s
  | .fdT => Sys2Proof.Machine.execFdT s
  | .feQ => Sys2Proof.Machine.execFeQ s
  | .fdQ => Sys2Proof.Machine.execFdQ s
  | .feQs => Sys2Proof.Machine.execFeQs s
  | .fdQs => Sys2Proof.Machine.execFdQs s
  | .feLit k => Sys2Proof.Machine.execFeLit k s
  | .fdLit k => Sys2Proof.Machine.execFdLit k s
  | .rxStart => Sys2Proof.Machine.execRxStart s
  | .rxNak => Sys2Proof.Machine.execRxNak s
  | .rxBusy => Sys2Proof.Machine.execRxBusy s
  | .rxBad b => Sys2Proof.Machine.execRxBad b s
  | .stmark => Sys2Proof.Machine.execStmark s
  | .pterm => Sys2Proof.Machine.execPterm s
  | .fterm => Sys2Proof.Machine.execFterm s
  | .esc => Sys2Proof.Machine.execEsc s

end Sys2Proof.Machine
end

