-- ==== Sys2Proof/Machine/HostPort.lean ====
section
/-! DEFINITION. The host port: what the host may write and read, and when (spec/10_state.md R14, R24,
spec/70_reset_and_hazards.md R260 to R262, R270, R276; log 4, log 22). -/

namespace Sys2Proof.Machine

/-- Reset (R260, R261): every piece of state at its reset value; the streams, the command table and the host's own
pending actions are not touched, nor are the implementation parameters or the counter of free values. R29's table has no
latch for the delivered result: here it does not outlive a reset but is none after it (DESIGN CHOICE, log 32). The
latched operands and the working values of an operation go back to their values in State.reset as well (log 32). -/
def applyReset (s : State) : State :=
  { State.reset with
    slotIn := List.replicate s.cfg.nslot none
    slotOut := List.replicate s.cfg.nslot none
    cfg := { defaultConfiguration with
      intBits := s.cfg.intBits
      realMantBits := s.cfg.realMantBits
      realMaxScale := s.cfg.realMaxScale
      nslot := s.cfg.nslot
      payloadMax := s.cfg.payloadMax
      textCodec := s.cfg.textCodec }
    table := s.table
    tableBuilt := s.tableBuilt
    freeCtr := s.freeCtr
    rx := s.rx
    tx := s.tx
    port := s.port }

/-- An instruction that is refused with `IllegalOp`: its request changes nothing but ERR (R234). -/
def refusedRequest : Instr → Bool
  | .illegal0 => true
  | .illegalC => true
  | .illegalD => true
  | .illegalE => true
  | .illegalF => true
  | .stFlag i => decide (22 ≤ i.toNat)
  | _ => false

/-- The state an operation the host starts runs in: its operands are latched, unless the request is refused (R234). -/
def latchOperands (i : Instr) (r : Request) (s : State) : State :=
  if refusedRequest i then s else { s with opnd := r.operands }

/-- A host write while no operation is in progress (R14, R24, R262). `start` is not a write: it changes nothing here.
Writing a placeholder's kind drops the value the placeholder held (DESIGN CHOICE, log 33: the spec does not say). -/
def hostWrite (a : HostAct) (s : State) : Out :=
  match a with
  | .start _ => .next s
  | .writeSlotIn i v =>
    if i < s.cfg.nslot then .next { s with slotIn := s.slotIn.set i (some v) } else .refused .noSuchSlot
  | .writeInCnt n => if n ≤ s.cfg.nslot then .next { s with inCnt := n } else .refused .noSuchSlot
  | .writeSlotOutKind i k =>
    if i < s.cfg.nslot then .next { s with slotOut := s.slotOut.set i (some ⟨k, none⟩) } else .refused .noSuchSlot
  | .writeOutCnt n => if n ≤ s.cfg.nslot then .next { s with outCnt := n } else .refused .noSuchSlot
  | .writeStatusMap m =>
    if m.admissible then .next { s with cfg := { s.cfg with statusMap := m } } else .refused .inadmissibleStatusMap
  | .writeCoverage c => .next { s with cfg := { s.cfg with coverage := c } }
  | .writeBusyLimit l => .next { s with cfg := { s.cfg with busyLimit := l } }
  | .writeRetryLimit l => .next { s with cfg := { s.cfg with retryLimit := l } }
  | .writeRetryPred p => .next { s with cfg := { s.cfg with retryPred := p } }
  | .writeLegacyCodes l =>
    if l = [] then .next { s with cfg := { s.cfg with legacyCodes := [] } } else .refused .legacyCodesHaveNoLayout
  | .buildTable t =>
    if s.tableBuilt then .refused .tableIsReadOnly else .next { s with table := t, tableBuilt := true }
  | .reset => .next (applyReset s)

/-- An action of the host while an operation is in progress (R270, I14, I31): a request is `IllegalOp`, a write and
reset are refused. -/
def earlyAct (a : HostAct) (s : State) : Out :=
  match a with
  | .start _ => .next (illegal s)
  | .reset => .refused .resetWhileBusy
  | _ => .refused .hostWriteWhileBusy

/-- What the host reads of `SLOT_OUT[i]`: a value only after an operation that ended without error (R276); what a failed
operation left there is gone (R15, R241). A value once readable stays so while a later operation is in progress, until
`FD.RUN` starts or an error is raised (DESIGN CHOICE, log 37: R270 and R276 do not say). -/
def hostReadsSlotOut (s : State) (i : Nat) : Option SlotVal :=
  if s.outOk ∧ i < s.outCnt then ((s.slotOut[i]?).join).bind OutSlot.val else none

/-- The bytes of a text, given by the codes of its characters. The default codec is the identity on bytes, and a character
above 255 has no byte there (R8, D16, N16; log 35). -/
def textToBytes (c : Config.TextCodec) (text : List Nat) : Option (List Byte) :=
  match c with
  | .identity => if text.all (· < 256) then some (text.map (BitVec.ofNat 8)) else none
  | .other n => Config.codecBytes n text

/-- The text that bytes stand for (R8, D16; log 35). -/
def bytesToText (c : Config.TextCodec) (bytes : List Byte) : Option (List Nat) :=
  match c with
  | .identity => some (bytes.map BitVec.toNat)
  | .other n => Config.codecText n bytes

/-- The TEXT value the host writes to a slot for a text: TEXT_CODEC is applied before `SLOT_IN` is written (R106, D16). -/
def hostTextSlot (s : State) (text : List Nat) : Option SlotVal := (textToBytes s.cfg.textCodec text).map .text

/-- The text the host has from `SLOT_OUT[i]`: TEXT_CODEC is applied after `SLOT_OUT` is read (D16). -/
def hostReadsText (s : State) (i : Nat) : Option (List Nat) :=
  match hostReadsSlotOut s i with
  | some (.text b) => bytesToText s.cfg.textCodec b
  | _ => none

/-- What the host reads of SR: only while SRV = 1 (R276), an operation in progress or not (log 37). -/
def hostReadsStatus (s : State) : Option DeviceStatus := if s.srv then some s.sr else none

/-- What the host reads of RXID and RXNUM: only after a successful `FRM.DEC` (R22, R276); an error since then has spoiled
them for good (R241). They can be read while another operation is in progress, the rest of the same `SES.CALL` included
(DESIGN CHOICE, log 37). -/
def hostReadsIdNum (s : State) : Option (Byte × Byte) :=
  if s.rxs = .done ∧ s.idOk then some (s.rxid, s.rxnum) else none

/-- The error code of the last operation (R220). -/
def Err.code : Err → Nat
  | .none => 0
  | .malformedFrame _ _ _ => 1
  | .checksumMismatch _ _ => 2
  | .protocolReject => 3
  | .deviceStatusError _ => 4
  | .decodeMismatch _ => 5
  | .channelFail _ _ => 6
  | .paramMismatch _ => 7
  | .encodeRange _ _ _ => 8
  | .payloadTooLong _ => 9
  | .templateRefused _ => 10
  | .unknownCommand _ => 11
  | .busyLimit _ => 12
  | .retryLimit _ => 13
  | .illegalOp => 14

end Sys2Proof.Machine
end

