-- ==== Sys2Proof/Machine/Fetch.lean ====
section
/-! DEFINITION. What the machine does next: take a request from the host port, a token from the template, the first or
a structural byte from the channel, or make a step of an operation that no table row names (spec/10_state.md R16 to
R18, spec/42_frame_codec.md R142). -/

namespace Sys2Proof.Machine

/-- What a step is: one instruction, run in a state, or a step that is no instruction, with its outcome. -/
inductive Fetched where
  | run (i : Instr) (s : State)
  | done (o : Out)

/-- A byte that must be the structural byte of position `pos` (R68): where it is, the byte's row runs; any other byte
is `MalformedFrame`. -/
def structural (want : Byte) (pos : Nat) (b : Byte) (s : State) : Fetched :=
  if b = want then
    match decode (.wire8 b) with
    | .ok i => .run i s
    | .error _ => .done (raise (.malformedFrame pos b (.byte want)) s)
  else .done (raise (.malformedFrame pos b (.byte want)) s)

/-- What the receive machine does with a byte, by its state (R143 to R151). -/
def rxByte (b : Byte) (s : State) : Fetched :=
  match s.rxs with
  | .waitStart => .run (decodeRxFirst b) s
  | .hdr => .done (hdrByte b s)
  | .payload => .done (payloadByte b s)
  | .stmark => structural Config.stmark (4 + rxN s) b s
  | .status => .done (statusByteIn b s)
  | .pterm => structural Config.pterm (rxQ s) b s
  | .bcc => .done (bccByte b s)
  | .fterm => structural Config.fterm (rxQ s + 5) b s
  | .idle => .done (.fault .rxsOutOfStep)
  | .check => .done (.fault .rxsOutOfStep)
  | .done => .done (.fault .rxsOutOfStep)
  | .fail => .done (.fault .rxsOutOfStep)

/-- A reading step of `FRM.DEC`: a channel that has not answered leaves the machine as it is (R250, R272), `fail`
raises `ChannelFail` (R154). -/
def rxRead (s : State) : Fetched :=
  match chanRead s with
  | .wait => .done (.next s)
  | .fail s' => .done (raise (.channelFail s.rxs s.rxUsed) s')
  | .byte b s' => rxByte b s'

/-- The next step of `FRM.DEC` (R142). -/
def rxStep (inCall : Bool) (s : State) : Fetched :=
  match s.rxs with
  | .payload => if s.rxcnt = 0 then .done (payloadEnd s) else rxRead s
  | .check => .done (checkFrame s)
  | .done => .done (finishFrameDec inCall s)
  | .idle => .done (.fault .rxsOutOfStep)
  | .fail => .done (.fault .rxsOutOfStep)
  | _ => rxRead s

/-- The next step inside an escaped field (R116): at a marker ESC runs. -/
def escapeStep (vc : VarCode) (s : State) : Fetched :=
  match s.fldRaw[s.fldJ]? with
  | some b =>
    match decode (.wire8 b) with
    | .ok .esc => .run .esc s
    | _ => .done (resumeField vc s.fldRaw s.fldJ s.fldU s)
  | none => .done (resumeField vc s.fldRaw s.fldJ s.fldU s)

/-- The next step of the operation in progress; with none in progress the machine waits for the host (R29). -/
def running (s : State) : Fetched :=
  match s.act with
  | .idle => .done (.next s)
  | .fieldEnc c =>
    match s.tmpl[s.tc]? with
    | some k => .run (decodeTokenEnc k) s
    | none => .done (finishFieldEnc c s)
  | .fieldDec c =>
    match s.tmpl[s.tc]? with
    | some k => .run (decodeTokenDec k) s
    | none => .done (finishFieldDec c s)
  | .unescape _ vc => escapeStep vc s
  | .frameDec c => rxStep c s
  | .callRound => .done (callRound s)
  | .callEncode => .done (callEncode s)
  | .callNextId => .run .sesNextId s
  | .callFrame => .done (callFrame s)
  | .callWrite => .done (callWrite s)
  | .callStatus => .done (callStatus s)

/-- A request of the host while no operation is in progress: its word is decoded and run (R80). -/
def request (r : Request) (s : State) : Fetched :=
  match decode (portWord r.op r.expst r.flag) with
  | .ok i => .run i (latchOperands i r s)
  | .error _ => .done (.next (illegal s))

/-- An action of the host while no operation is in progress. -/
def hostAct (a : HostAct) (s : State) : Fetched :=
  match a with
  | .start r => request r s
  | .writeSlotIn i v => .done (hostWrite (.writeSlotIn i v) s)
  | .writeInCnt n => .done (hostWrite (.writeInCnt n) s)
  | .writeSlotOutKind i k => .done (hostWrite (.writeSlotOutKind i k) s)
  | .writeOutCnt n => .done (hostWrite (.writeOutCnt n) s)
  | .writeStatusMap m => .done (hostWrite (.writeStatusMap m) s)
  | .writeCoverage c => .done (hostWrite (.writeCoverage c) s)
  | .writeBusyLimit l => .done (hostWrite (.writeBusyLimit l) s)
  | .writeRetryLimit l => .done (hostWrite (.writeRetryLimit l) s)
  | .writeRetryPred p => .done (hostWrite (.writeRetryPred p) s)
  | .writeLegacyCodes l => .done (hostWrite (.writeLegacyCodes l) s)
  | .buildTable t => .done (hostWrite (.buildTable t) s)
  | .reset => .done (hostWrite .reset s)

/-- What the machine does next: an action of the host if none of its operations runs or if the host does not wait, else
the next step of the running operation (log 4). -/
def fetch (s : State) : Fetched :=
  match s.port with
  | [] => running s
  | e :: rest =>
    if s.act = .idle then hostAct e.act { s with port := rest }
    else if e.early then .done (earlyAct e.act { s with port := rest })
    else running s

end Sys2Proof.Machine
end

