-- ==== Sys2Proof/Machine/Step.lean ====
section
/-! DEFINITION. One step of the machine, and how a table word is placed where the next step fetches it. -/

namespace Sys2Proof.Machine

/-- One step: the fetched instruction runs, or the step that is no instruction is made. -/
def step (s : State) : Host.Outcome State Fault Refusal :=
  match fetch s with
  | .run i s' => exec i s'
  | .done o => o

/-- `n` steps, stopping at the first fault or refusal. -/
def runSteps : Nat → State → Out
  | 0, s => .next s
  | n + 1, s =>
    match step s with
    | .next s' => runSteps n s'
    | .fault f => .fault f
    | .refused r => .refused r

/-- The state `s` with one table word placed where the next step fetches it (log 3): an `op_sel` word as the host's
next request (operands as latched), a token as the template of a running `FE.RUN`, a first byte as the channel's next
answer in WAIT_START, ESC as an escaped field, the internal row as the point of `SES.CALL` that takes the id. -/
def State.withFetchWord (s : State) (nbits w : Nat) : State :=
  match tableWord nbits w with
  | some (.op4 o) => { s with act := .idle, port := ⟨false, .start ⟨o, false, 0, s.opnd⟩⟩ :: s.port }
  | some (.op4Expst o) =>
    { s with act := .idle, port := ⟨false, .start ⟨o.extractLsb 4 1, o.getLsbD 0, 0, s.opnd⟩⟩ :: s.port }
  | some (.op4Flag5 o) =>
    { s with act := .idle, port := ⟨false, .start ⟨o.extractLsb 8 5, false, o.extractLsb 4 0, s.opnd⟩⟩ :: s.port }
  | some (.token8 .enc k) => { s with act := .fieldEnc false, tmpl := [k], tc := 0, port := [] }
  | some (.token8 .dec k) => { s with act := .fieldDec false, tmpl := [k], tc := 0, port := [] }
  | some (.rxFirst8 b) => { s with act := .frameDec false, rxs := .waitStart, rx := .byte b :: s.rx, port := [] }
  | some (.wire8 b) => { s with act := .unescape false .t, fldRaw := [b], fldJ := 0, port := [] }
  | some .internal => { s with act := .callNextId, port := [] }
  | none => s

end Sys2Proof.Machine
end

