-- ==== Sys2Proof/Safety.lean ====
section
/-! DEFINITION. What counts as a sound state and a safe step, in the terms the statements use: the bounds of
spec/10_state.md R14 to R19 and R27, the canonical form of the buffers, and where each activity may stand. -/

namespace Sys2Proof.Safety

open Sys2Proof.Machine

/-- The host does not act before the running operation has ended (spec/70_reset_and_hazards.md R270). -/
def hostWaits (s : State) : Bool :=
  match s.port with
  | [] => true
  | e :: _ => !e.early

/-- RXS between operations (R16). -/
abbrev quietRxs (r : Rxs) : Prop := r = .idle ∨ r = .done ∨ r = .fail

/-- SES between calls (R18, R202). -/
abbrev restingSes (x : Ses) : Prop := x = .idle ∨ x = .decoded ∨ x = .failed

/-- Which SES an activity goes with (R202). -/
def sesOk (s : State) : Prop :=
  match s.act with
  | .callRound => s.ses = .idle ∨ s.ses = .retryRequested
  | .callEncode => s.ses = .sending
  | .fieldEnc true => s.ses = .sending
  | .callNextId => s.ses = .sending
  | .callFrame => s.ses = .sending
  | .callWrite => s.ses = .sending
  | .frameDec true => s.ses = .awaitingResponse
  | .callStatus => s.ses = .awaitingResponse
  | .fieldDec true => s.ses = .awaitingResponse
  | .unescape true _ => s.ses = .awaitingResponse
  | _ => restingSes s.ses

/-- What the receive machine has stored, by its state (R142 to R151). -/
def rxOk (s : State) : Prop :=
  match s.rxs with
  | .waitStart => True
  | .hdr => 1 ≤ s.rxcnt ∧ s.rxcnt ≤ 3 ∧ Memory.covers s.fbuf 1
  | .payload =>
    lenMin s ≤ s.rxlen.toNat ∧ s.rxcnt ≤ rxN s ∧ Memory.covers s.pbuf (rxN s - s.rxcnt) ∧
      Memory.covers s.fbuf (4 + (rxN s - s.rxcnt))
  | .stmark =>
    s.expst = true ∧ lenMin s ≤ s.rxlen.toNat ∧ s.plen = rxN s ∧ Memory.covers s.pbuf (rxN s) ∧
      Memory.covers s.fbuf (4 + rxN s)
  | .status =>
    s.expst = true ∧ lenMin s ≤ s.rxlen.toNat ∧ s.plen = rxN s ∧ Memory.covers s.pbuf (rxN s) ∧ 1 ≤ s.rxcnt ∧
      s.rxcnt ≤ 6 ∧ Memory.covers s.fbuf (5 + rxN s + (6 - s.rxcnt))
  | .pterm =>
    lenMin s ≤ s.rxlen.toNat ∧ s.plen = rxN s ∧ Memory.covers s.pbuf (rxN s) ∧ Memory.covers s.fbuf (rxQ s)
  | .bcc =>
    lenMin s ≤ s.rxlen.toNat ∧ s.plen = rxN s ∧ Memory.covers s.pbuf (rxN s) ∧ 1 ≤ s.rxcnt ∧ s.rxcnt ≤ 4 ∧
      Memory.covers s.fbuf (rxQ s + 1 + (4 - s.rxcnt))
  | .fterm =>
    lenMin s ≤ s.rxlen.toNat ∧ s.plen = rxN s ∧ Memory.covers s.pbuf (rxN s) ∧ Memory.covers s.fbuf (rxQ s + 5)
  | .check =>
    lenMin s ≤ s.rxlen.toNat ∧ s.plen = rxN s ∧ Memory.covers s.pbuf (rxN s) ∧ s.flen = rxQ s + 6 ∧
      Memory.covers s.fbuf s.flen
  | .done =>
    lenMin s ≤ s.rxlen.toNat ∧ s.plen = rxN s ∧ Memory.covers s.pbuf (rxN s) ∧ s.flen = rxQ s + 6 ∧
      Memory.covers s.fbuf s.flen
  | .idle => False
  | .fail => False

/-- Where each activity may stand. -/
def ctlOk (s : State) : Prop :=
  match s.act with
  | .idle => True
  | .fieldEnc _ => Memory.covers s.pbuf s.pc
  | .fieldDec _ => s.pc ≤ s.plen
  | .unescape _ _ => s.pc ≤ s.plen ∧ s.tc < s.tmpl.length
  | .frameDec _ => rxOk s
  | .callRound => True
  | .callEncode => True
  | .callNextId => s.plen ≤ s.cfg.payloadMax
  | .callFrame => s.plen ≤ s.cfg.payloadMax
  | .callWrite => Memory.covers s.fbuf s.flen
  | .callStatus => True

/-- The invariant of the machine. -/
structure SoundState (s : State) : Prop where
  pbufWf : Memory.wf s.pbuf
  fbufWf : Memory.wf s.fbuf
  midLow : 32 ≤ s.mid.toNat
  midHigh : s.mid.toNat ≤ 127
  slotInLen : s.slotIn.length = s.cfg.nslot
  slotOutLen : s.slotOut.length = s.cfg.nslot
  inCntLe : s.inCnt ≤ s.cfg.nslot
  outCntLe : s.outCnt ≤ s.cfg.nslot
  rxcntLe : s.rxcnt ≤ 255
  plenLe : s.plen ≤ Config.bufSz
  flenLe : s.flen ≤ Config.bufSz
  tcLe : s.tc ≤ s.tmpl.length
  pcLe : s.pc ≤ Config.bufSz
  scLe : s.sc ≤ s.cfg.nslot
  mapOk : s.cfg.statusMap.admissible = true
  legacyOk : s.cfg.legacyCodes = []
  payloadMaxLe : s.cfg.payloadMax ≤ Config.payloadMax
  idQuiet : s.idOk = true → s.rxs = .done
  payloadCovers : Memory.covers s.pbuf s.plen
  rxQuiet : s.act.isFrameDec = false → quietRxs s.rxs
  ctl : ctlOk s
  ses : sesOk s

/-- The template cannot be decoded at position `i` (spec/41_field_codec.md R109): a variable-width token whose next token
is a typed code while a later token is variable-width. -/
def undecodableAt (t : List Byte) (i : Nat) : Prop :=
  ∃ k k' j x, t[i]? = some k ∧ isVariable k = true ∧ t[i + 1]? = some k' ∧ isTyped k' = true ∧ i < j ∧
    t[j]? = some x ∧ isVariable x = true

/-- Slots that suit the typed tokens `cs`: each has a kind its code takes (R100, R101 (3)). -/
def suits (kindOf : Nat → Option Kind) (cs : List FieldCode) : Prop :=
  ∀ k c, cs[k]? = some c → ∃ kd, kindOf k = some kd ∧ accepts c kd = true

/-- Checks (2) and (3) of R101 fail with this information: the count, else the first slot that does not suit. -/
def paramsRefused (kindOf : Nat → Option Kind) (given : Nat) (cs : List FieldCode) (info : ParamInfo) : Prop :=
  (cs.length ≠ given ∧ info = .count cs.length given) ∨
    (cs.length = given ∧ ∃ k c, cs[k]? = some c ∧ suits kindOf (cs.take k) ∧
      (∀ kd, kindOf k = some kd → accepts c kd = false) ∧ info = .slot k c (kindOf k))

/-- The static checks of `FE.RUN(t)` pass (R101). -/
def encodeChecks (s : State) (t : List Byte) : Prop :=
  (typedCodes t).length = s.inCnt ∧ suits (slotInKind s) (typedCodes t)

/-- The static checks of `FE.RUN(t)` fail with this error (R101). -/
def encodeRefused (s : State) (t : List Byte) (e : Err) : Prop :=
  ∃ info, paramsRefused (slotInKind s) s.inCnt (typedCodes t) info ∧ e = .paramMismatch info

/-- The static checks of `FD.RUN(t)` pass (R101). -/
def decodeChecks (s : State) (t : List Byte) : Prop :=
  (∀ i, ¬ undecodableAt t i) ∧ (typedCodes t).length = s.outCnt ∧ suits (slotOutKind s) (typedCodes t)

/-- The static checks of `FD.RUN(t)` fail with this error: an undecodable template at its leftmost such token first
(R101, R230; log 34), then the count and the kinds. -/
def decodeRefused (s : State) (t : List Byte) (e : Err) : Prop :=
  (∃ i, undecodableAt t i ∧ (∀ j < i, ¬ undecodableAt t j) ∧ e = .templateRefused i) ∨
    ((∀ i, ¬ undecodableAt t i) ∧ ∃ info, paramsRefused (slotOutKind s) s.outCnt (typedCodes t) info ∧
      e = .paramMismatch info)

/-- The table of spec/10_state.md R29, row by row: what it gives a value. The configuration is at the defaults of R8,
STATUS_MAP free again (log 6); its parameters that are no registers are not reset (log 23). -/
structure AtReset (t : State) : Prop where
  mid : t.mid = 32#8
  ses : t.ses = .idle
  rxs : t.rxs = .idle
  counts : t.rxcnt = 0 ∧ t.busycnt = 0 ∧ t.retrycnt = 0
  cursors : t.tc = 0 ∧ t.pc = 0 ∧ t.sc = 0
  expst : t.expst = false
  srv : t.srv = false
  err : t.err = .none
  slotIn : t.slotIn.length = t.cfg.nslot ∧ ∀ i < t.cfg.nslot, t.slotIn[i]? = some none
  slotOut : t.slotOut.length = t.cfg.nslot ∧ ∀ i < t.cfg.nslot, t.slotOut[i]? = some none
  slotCounts : t.inCnt = 0 ∧ t.outCnt = 0
  buffers : (∀ a, Memory.read t.pbuf a = none) ∧ ∀ a, Memory.read t.fbuf a = none
  lengths : t.plen = 0 ∧ t.flen = 0
  statusMap : t.cfg.statusMap = freeStatusMap
  coverage : t.cfg.coverage = .block
  limits : t.cfg.busyLimit = none ∧ t.cfg.retryLimit = none
  retryPred : ∀ st, predHolds t.cfg.retryPred st = false
  legacyCodes : t.cfg.legacyCodes = []

/-- The ASCII digit of a number below sixteen, upper case (spec/30_encoding.md R71). -/
def upperHexDigit (n : Nat) : Byte := if n ≤ 9 then BitVec.ofNat 8 (0x30 + n) else BitVec.ofNat 8 (0x41 + n - 10)

/-- The ASCII digit of a number below ten (spec/00_scope.md R11). -/
def decimalDigit (n : Nat) : Byte := BitVec.ofNat 8 (0x30 + n)

/-- Bit `bit` of byte `byte` of a status block, by its weight (spec/30_encoding.md R76). -/
def statusBit (st : DeviceStatus) (p : Config.BitPos) : Bool := ((st.toList.getD p.byte.val 0).toNat / 2 ^ p.bit.val) % 2 == 1

/-- The moves of the sequencer (spec/44_command_session.md R202) as one step of the model shows them (log 1, DESIGN
CHOICE). From a resting state a new `SES.CALL` (or a reset) starts again from Idle, and an unknown command fails in that
same step, so R202's Idle to Failed is seen as Decoded to Failed too. R202's RetryRequested to Failed is not here: the
retry limit is raised in the step that sets RetryRequested, so it is seen as AwaitingResponse to Failed. -/
def sesMove (a b : Ses) : Prop :=
  (restingSes a ∧ (b = .idle ∨ b = .failed)) ∨
    (a, b) ∈ [(Ses.idle, Ses.sending), (.sending, .awaitingResponse), (.sending, .failed),
      (.awaitingResponse, .decoded), (.awaitingResponse, .retryRequested), (.awaitingResponse, .failed),
      (.retryRequested, .sending)]

/-- A state from which one step does not fault. -/
def SafeStep (s : State) : Prop := ∀ f, step s ≠ .fault f

end Sys2Proof.Safety
end

