-- ==== Sys2Proof/Certificates/Slice0/Obligations.lean ====
section
/-! DEFINITION. The statements for the provers. Each docstring names the rule of spec/ it formalises. `raised e s` is
the state after taking error `e`; what it holds is stated in `RaisingAnErrorKeepsAndSpoils`. -/

open Sys2Proof Sys2Proof.Machine Sys2Proof.Safety

/-! ### Encoding -/

/-- Decoding the word of a well-formed instruction gives the instruction back (30_encoding R67, R69, R80). -/
def Obligations.DecodeOfEncodeIsTheInstruction : Prop :=
  ∀ i : Instr, WellFormed i → decode (encode i) = .ok i

/-- Each accepted word has one meaning: the word of what it decodes to is the word itself (30_encoding R80). -/
def Obligations.EncodeOfDecodeIsTheWord : Prop :=
  ∀ (c : CodeWord) (i : Instr), decode c = .ok i → encode i = c ∧ WellFormed i

/-- Every request of the host port decodes, and it is one that `IllegalOp` refuses exactly for the selectors 0x0 and
0xC to 0xF and for a flag index above 21 (60_exceptions R234, 30_encoding R80). -/
def Obligations.PortRequestsDecodeAndIllegalOnesAreNamed : Prop :=
  ∀ (op : BitVec 4) (e : Bool) (f : BitVec 5), ∃ i, decode (portWord op e f) = .ok i ∧
    (refusedRequest i = true ↔ (op = 0x0#4 ∨ 0xC#4 ≤ op) ∨ (op = 0x8#4 ∧ 22 ≤ f.toNat))

/-- Words written out from the table, and the token decoder is total: every byte is one of the five typed codes or a
literal, under `FE.RUN` and under `FD.RUN` (30_encoding R69, R77, R80). -/
def Obligations.SpecWordsDecodeToTheirRows : Prop :=
  decode (.op4 0b0001#4) = .ok .bccSum ∧ decode (.op4 0b1011#4) = .ok .sesCall ∧
  decode (.op4 0b1100#4) = .ok .illegalC ∧ decode (.op4Expst 0b01100#5) = .ok .frmEncHost ∧
  decode (.op4Expst 0b01101#5) = .ok .frmEncDevice ∧ decode (.op4Expst 0b01111#5) = .ok (.frmDec true) ∧
  decode (.op4Flag5 0b100000011#9) = .ok .stErrRibbonOut ∧ decode (.op4Flag5 0b100010011#9) = .ok .stFiscalized ∧
  decode (.op4Flag5 0b100010110#9) = .ok (.stFlag 22#5) ∧ decode (.token8 .enc 0x57#8) = .ok .feW ∧
  decode (.token8 .dec 0x71#8) = .ok .fdQs ∧ decode (.rxFirst8 0x16#8) = .ok .rxBusy ∧
  decode (.rxFirst8 0x02#8) = .ok (.rxBad 0x02#8) ∧ decode (.wire8 0x04#8) = .ok .stmark ∧
  decode (.wire8 0x10#8) = .ok .esc ∧ decode .internal = .ok .sesNextId ∧
  (∀ b i j, (b, i, j) ∈ [(0x57#8, Instr.feW, Instr.fdW), (0x42#8, .feB, .fdB), (0x54#8, .feT, .fdT),
      (0x51#8, .feQ, .fdQ), (0x71#8, .feQs, .fdQs)] →
    decode (.token8 .enc b) = .ok i ∧ decode (.token8 .dec b) = .ok j) ∧
  ∀ b : Byte, b ∉ [0x57#8, 0x42#8, 0x54#8, 0x51#8, 0x71#8] →
    decode (.token8 .enc b) = .ok (.feLit b) ∧ decode (.token8 .dec b) = .ok (.fdLit b)

/-! ### The step -/

/-- A step runs the decoded instruction: a request of the port with its operands latched, the template token under TC,
the first byte of a response, a structural byte, an escape marker, and `SES.NEXTID` (10_state R16 to R18, 42_frame_codec
R142). -/
def Obligations.StepRunsTheDecodedInstruction : Prop :=
  (∀ (s : State) (e : Bool) (r : Request) (rest : List PortEvent) (i : Instr),
    s.act = .idle → s.port = ⟨e, .start r⟩ :: rest → decode (portWord r.op r.expst r.flag) = .ok i →
    step s = exec i (latchOperands i r { s with port := rest })) ∧
  (∀ (s : State) (c : Bool) (k : Byte) (i : Instr), s.act = .fieldEnc c → hostWaits s = true →
    s.tmpl[s.tc]? = some k → decode (.token8 .enc k) = .ok i → step s = exec i s) ∧
  (∀ (s : State) (c : Bool) (k : Byte) (i : Instr), s.act = .fieldDec c → hostWaits s = true →
    s.tmpl[s.tc]? = some k → decode (.token8 .dec k) = .ok i → step s = exec i s) ∧
  (∀ (s : State) (c : Bool) (b : Byte) (rest : List ChanAnswer) (i : Instr), s.act = .frameDec c →
    hostWaits s = true → s.rxs = .waitStart → s.rx = .byte b :: rest → decode (.rxFirst8 b) = .ok i →
    step s = exec i { s with rx := rest, rxUsed := s.rxUsed + 1 }) ∧
  (∀ (s : State) (c : Bool) (b : Byte) (rest : List ChanAnswer) (i : Instr), s.act = .frameDec c →
    hostWaits s = true → (s.rxs, b) ∈ [(Rxs.stmark, 0x04#8), (.pterm, 0x05#8), (.fterm, 0x03#8)] →
    s.rx = .byte b :: rest → decode (.wire8 b) = .ok i →
    step s = exec i { s with rx := rest, rxUsed := s.rxUsed + 1 }) ∧
  (∀ (s : State) (c : Bool) (vc : VarCode), s.act = .unescape c vc → hostWaits s = true →
    s.fldRaw[s.fldJ]? = some 0x10#8 → step s = exec .esc s) ∧
  (∀ s : State, s.act = .callNextId → hostWaits s = true → step s = exec .sesNextId s)

/-! ### CHK -/

/-- `BCC.SUM` (40_checksum R90), with the coverage of a device frame as R94 gives it. -/
def Obligations.ChecksumValue : Prop :=
  ∀ s : State, ∃ v : BitVec 16, exec .bccSum s = .next { s with err := .none, result := .sum v } ∧
    v.toNat = (4 + byteSum s.opnd.h.toList + byteSum s.opnd.p +
      (if s.opnd.hasStatus then
        match s.cfg.coverage with
        | .block => byteSum s.opnd.status.toList
        | .none => 0
        | .markerAndBlock => 4 + byteSum s.opnd.status.toList
      else 0)) % 65536

/-- `BCC.RENDER` (40_checksum R91): four digits 0x30 + nibble, high nibble first, and distinct values give distinct
digits. -/
def Obligations.RenderedDigits : Prop :=
  (∀ s : State, ∃ d : Quad, exec .bccRender s = .next { s with err := .none, result := .digits d } ∧
    d.b0.toNat = 0x30 + s.opnd.s.toNat / 4096 ∧ d.b1.toNat = 0x30 + s.opnd.s.toNat / 256 % 16 ∧
    d.b2.toNat = 0x30 + s.opnd.s.toNat / 16 % 16 ∧ d.b3.toNat = 0x30 + s.opnd.s.toNat % 16) ∧
  ∀ x y : BitVec 16, bccRender x = bccRender y → x = y

/-- `BCC.VERIFY` (40_checksum R92): equal bytes are ok, any other four bytes raise `ChecksumMismatch` with both. That
an error here spoils what R241 says although CHK touches none of it is log 11. -/
def Obligations.VerifyComparesTheDigits : Prop :=
  ∀ s : State,
    (bccRender (bccSum s.cfg.coverage s.opnd.h.toList s.opnd.p s.opnd.st) = s.opnd.r →
      exec .bccVerify s = .next { s with err := .none, result := .verified }) ∧
    (bccRender (bccSum s.cfg.coverage s.opnd.h.toList s.opnd.p s.opnd.st) ≠ s.opnd.r →
      exec .bccVerify s = .next (raised
        (.checksumMismatch (bccRender (bccSum s.cfg.coverage s.opnd.h.toList s.opnd.p s.opnd.st)) s.opnd.r) s))

/-- Changing one covered payload byte changes the rendered digits (40_checksum R93 (d)), and no real frame wraps
(R93 (b)): with at most 219 bytes after the header the sum is at most 56615. -/
def Obligations.ChecksumSensitivityAndNoWrap : Prop :=
  (∀ (c : Config.Coverage) (h p : List Byte) (st : Option DeviceStatus) (i : Nat) (b b' : Byte),
    p[i]? = some b → b' ≠ b → bccRender (bccSum c h (p.set i b') st) ≠ bccRender (bccSum c h p st)) ∧
  ∀ (c : Config.Coverage) (len id num : Byte) (p : List Byte) (st : Option DeviceStatus),
    lengthPayload p.length st ≤ 219 →
    (bccSum c [0x01#8, len, id, num] p st).toNat = 4 + byteSum [0x01#8, len, id, num] + byteSum p + bccCov c st ∧
    4 + byteSum [0x01#8, len, id, num] + byteSum p + bccCov c st ≤ 56615

/-! ### FLD, encoding -/

/-- `FE.RUN` (41_field_codec R101, R102): the count, then the kinds in slot order, before any byte; then the cursors are
0 and the token loop runs. That a slot without a value is reported with no kind is log 15. -/
def Obligations.FieldEncodeStarts : Prop :=
  ∀ s : State,
    (encodeChecks s s.opnd.template →
      exec .feRun s = .next { s with
        err := .none, result := .none, act := .fieldEnc false, tmpl := s.opnd.template, tc := 0, pc := 0, sc := 0 }) ∧
    ∀ e, encodeRefused s s.opnd.template e → exec .feRun s = .next (raised e { s with act := .fieldEnc false })

/-- `FE.LIT` (41_field_codec R103): the byte itself, raw, and no slot. Past the buffer nothing is written and
`PayloadTooLong` is raised (20_memory R43; the length it reports is log 13). -/
def Obligations.LiteralTokenIsEmittedRaw : Prop :=
  ∀ (s : State) (k : Byte),
    (s.pc + 1 ≤ 1024 →
      exec (.feLit k) s = .next { s with
        pbuf := Memory.writeBytes s.pbuf s.pc [k], pc := s.pc + 1, tc := s.tc + 1 }) ∧
    (1024 < s.pc + 1 → exec (.feLit k) s = .next (raised (.payloadTooLong (s.pc + 1)) s))

/-- `FE.W` (41_field_codec R104): four uppercase hex digits, most significant first; a value outside 0..65535 raises
`EncodeRange`. -/
def Obligations.WTokenIsFourHexDigits : Prop :=
  ∀ s : State,
    (∀ v : Nat, slotInVal s s.sc = some (.int v) → v ≤ 65535 → s.pc + 4 ≤ 1024 →
      exec .feW s = .next { s with
        pbuf := Memory.writeBytes s.pbuf s.pc
          [upperHexDigit (v / 4096), upperHexDigit (v / 256 % 16), upperHexDigit (v / 16 % 16), upperHexDigit (v % 16)]
        pc := s.pc + 4, tc := s.tc + 1, sc := s.sc + 1 }) ∧
    (∀ v : Int, slotInVal s s.sc = some (.int v) → (v < 0 ∨ 65535 < v) →
      exec .feW s = .next (raised (.encodeRange s.sc .w (.int v)) { s with sc := s.sc + 1 }))

/-- `FE.B` (41_field_codec R105): sign, integer part without leading zeros, and for a REAL with `d` decimals the point
and exactly `d` digits; a value outside the bounds of R15 raises `EncodeRange`. The digit strings are what R105 says:
`dec` spells the number with decimal digits and no leading zero, 0 as one digit, `decPad` has exactly `d` digits and
spells the number modulo `10 ^ d`. -/
def Obligations.BTokenIsTheNumeral : Prop :=
  (∀ s : State,
    (∀ (v : Int) (bs : List Byte), slotInVal s s.sc = some (.int v) →
      -(2 ^ (s.cfg.intBits - 1) : Int) ≤ v → v < (2 ^ (s.cfg.intBits - 1) : Int) →
      bs = (if v < 0 then [0x2D#8] else []) ++ dec v.natAbs → s.pc + bs.length ≤ 1024 →
      exec .feB s = .next { s with
        pbuf := Memory.writeBytes s.pbuf s.pc bs, pc := s.pc + bs.length, tc := s.tc + 1, sc := s.sc + 1 }) ∧
    (∀ (m : Int) (d : Nat) (bs : List Byte), slotInVal s s.sc = some (.real m d) → d ≤ s.cfg.realMaxScale →
      -(2 ^ (s.cfg.realMantBits - 1) : Int) ≤ m → m < (2 ^ (s.cfg.realMantBits - 1) : Int) →
      bs = (if m < 0 then [0x2D#8] else []) ++ dec (m.natAbs / 10 ^ d) ++
        (if d = 0 then [] else [0x2E#8] ++ decPad (m.natAbs % 10 ^ d) d) → s.pc + bs.length ≤ 1024 →
      exec .feB s = .next { s with
        pbuf := Memory.writeBytes s.pbuf s.pc bs, pc := s.pc + bs.length, tc := s.tc + 1, sc := s.sc + 1 }) ∧
    (∀ v : Int, slotInVal s s.sc = some (.int v) →
      (v < -(2 ^ (s.cfg.intBits - 1) : Int) ∨ (2 ^ (s.cfg.intBits - 1) : Int) ≤ v) →
      exec .feB s = .next (raised (.encodeRange s.sc .b (.int v)) { s with sc := s.sc + 1 })) ∧
    (∀ (m : Int) (d : Nat), slotInVal s s.sc = some (.real m d) →
      (s.cfg.realMaxScale < d ∨ m < -(2 ^ (s.cfg.realMantBits - 1) : Int) ∨
        (2 ^ (s.cfg.realMantBits - 1) : Int) ≤ m) →
      exec .feB s = .next (raised (.encodeRange s.sc .b (.real m d)) { s with sc := s.sc + 1 }))) ∧
  (∀ n : Nat, decValue (dec n) = n ∧ (dec n).all isDigit = true ∧ dec n ≠ [] ∧
    (n ≠ 0 → (dec n).head? ≠ some 0x30#8)) ∧ dec 0 = [0x30#8] ∧
  (∀ x d : Nat, (decPad x d).length = d ∧ (decPad x d).all isDigit = true ∧ decValue (decPad x d) = x % 10 ^ d)

/-- `FE.T` (41_field_codec R106): each byte below 32 becomes the escape marker and the byte plus 64, every other byte
itself; a CHAR is the one-byte text. -/
def Obligations.TTokenIsEscaped : Prop :=
  ∀ (s : State) (txt bs : List Byte),
    (slotInVal s s.sc = some (.text txt) ∨ ∃ c, txt = [c] ∧ slotInVal s s.sc = some (.char c)) →
    bs = txt.flatMap (fun b => if b.toNat < 32 then [0x10#8, b + 64#8] else [b]) → s.pc + bs.length ≤ 1024 →
    exec .feT s = .next { s with
      pbuf := Memory.writeBytes s.pbuf s.pc bs, pc := s.pc + bs.length, tc := s.tc + 1, sc := s.sc + 1 }

/-- `FE.Q` and `FE.q` (41_field_codec R107, R108): `DD-MM-YY HH-MM` and `DD-MM-YY HH-MM-SS`, two decimal digits a
field, the year modulo 100; a field above 99 raises `EncodeRange`. -/
def Obligations.DateTokensAreTheLayouts : Prop :=
  ∀ (s : State) (v : DateTime) (d2 : Nat → List Byte) (bs : List Byte),
    slotInVal s s.sc = some (.datetime v) → (∀ n, d2 n = [decimalDigit (n / 10), decimalDigit (n % 10)]) →
    bs = d2 v.day ++ [0x2D#8] ++ d2 v.month ++ [0x2D#8] ++ d2 (v.year.val % 100) ++ [0x20#8] ++ d2 v.hour ++ [0x2D#8] ++
      d2 v.minute →
    (v.day ≤ 99 → v.month ≤ 99 → v.hour ≤ 99 → v.minute ≤ 99 → s.pc + 14 ≤ 1024 →
      exec .feQ s = .next { s with
        pbuf := Memory.writeBytes s.pbuf s.pc bs, pc := s.pc + 14, tc := s.tc + 1, sc := s.sc + 1 }) ∧
    (v.day ≤ 99 → v.month ≤ 99 → v.hour ≤ 99 → v.minute ≤ 99 → v.second ≤ 99 → s.pc + 17 ≤ 1024 →
      exec .feQs s = .next { s with
        pbuf := Memory.writeBytes s.pbuf s.pc (bs ++ [0x2D#8] ++ d2 v.second)
        pc := s.pc + 17, tc := s.tc + 1, sc := s.sc + 1 }) ∧
    ((99 < v.day ∨ 99 < v.month ∨ 99 < v.hour ∨ 99 < v.minute) →
      exec .feQ s = .next (raised (.encodeRange s.sc .q (.datetime v)) { s with sc := s.sc + 1 }) ∧
      exec .feQs s = .next (raised (.encodeRange s.sc .qs (.datetime v)) { s with sc := s.sc + 1 })) ∧
    (99 < v.second →
      exec .feQs s = .next (raised (.encodeRange s.sc .qs (.datetime v)) { s with sc := s.sc + 1 }))

/-- A typed token whose slot does not suit it, or whose bytes do not fit, raises (41_field_codec R100, R102, R110, R111,
10_state R15, 20_memory R43): a slot without a value or of a kind the code does not take is `ParamMismatch`, a payload
that would pass address 1023 is `PayloadTooLong`, a field whose end is not found is `DecodeMismatch` with what the
width rule found. The length `PayloadTooLong` reports is log 13, the record of a slot without a value or kind log 15, the
order of the two checks of a decoding token log 31. -/
def Obligations.TypedTokensRaiseOnTheirSlotOrField : Prop :=
  ∀ (s : State) (i j : Instr) (code : FieldCode), (i, j, code) ∈ [(Instr.feW, Instr.fdW, FieldCode.w),
      (.feB, .fdB, .b), (.feT, .fdT, .t), (.feQ, .fdQ, .q), (.feQs, .fdQs, .qs)] →
    (slotInVal s s.sc = none → exec i s = .next (raised (.paramMismatch (.slot s.sc code none)) s)) ∧
    (∀ v, slotInVal s s.sc = some v → accepts code v.kind = false →
      exec i s = .next (raised (.paramMismatch (.slot s.sc code (some v.kind))) s)) ∧
    (∀ v bs, slotInVal s s.sc = some v → accepts code v.kind = true → fieldBytes s.cfg code v = some bs →
      1024 < s.pc + bs.length →
      exec i s = .next (raised (.payloadTooLong (s.pc + bs.length)) { s with sc := s.sc + 1 })) ∧
    (∀ p e, Memory.readBytes s.pbuf 0 s.plen = some p →
      fieldWidth code (s.tmpl.drop (s.tc + 1)) p s.pc = .error e →
      exec j s = .next (raised (.decodeMismatch e) s)) ∧
    (∀ p w, Memory.readBytes s.pbuf 0 s.plen = some p → fieldWidth code (s.tmpl.drop (s.tc + 1)) p s.pc = .ok w →
      (∀ k, slotOutKind s s.sc = some k → accepts code k = false) →
      exec j s = .next (raised (.paramMismatch (.slot s.sc code (slotOutKind s s.sc))) { s with pc := s.pc + w }))

/-- The frame of the encoding tokens: they raise, or change PBUF at the addresses from the old PC to the new PC, the
three cursors, and nothing else (41_field_codec R102). -/
def Obligations.EncodingTokensStoreOnlyAtPc : Prop :=
  ∀ (i : Instr) (s t : State), (i ∈ [Instr.feW, .feB, .feT, .feQ, .feQs] ∨ ∃ k, i = .feLit k) →
    exec i s = .next t →
    (∃ e n, t = raised e { s with sc := n } ∧ (n = s.sc ∨ n = s.sc + 1)) ∨
      (t = { s with pbuf := t.pbuf, pc := t.pc, tc := s.tc + 1, sc := t.sc } ∧
        t.sc = (if ∃ k, i = .feLit k then s.sc else s.sc + 1) ∧ s.pc ≤ t.pc ∧
        ∀ a, a < s.pc ∨ t.pc ≤ a → Memory.read t.pbuf a = Memory.read s.pbuf a)

/-- `FE.RUN` as a whole (41_field_codec R102), from the host and inside `SES.CALL`: the steps of its token loop compute
the payload of the template and the slots, write it over the start of PBUF and move the cursors, and change nothing else;
then PLEN is its length, and the operation ends, or the call goes on to its id where the payload is not too long
(44_command_session R201). -/
def Obligations.FieldEncodeRunMakesThePayload : Prop :=
  ∀ (s : State) (c : Bool) (vs : List SlotVal) (bs : List Byte),
    s.act = .fieldEnc c → hostWaits s = true → s.tc = 0 → s.pc = 0 → s.sc = 0 →
    (∀ k v, vs[k]? = some v → slotInVal s k = some v) → encodeAll s.cfg s.tmpl vs = some bs → bs.length ≤ 1024 →
    ∃ t : State, runSteps s.tmpl.length s = .next t ∧
      t = { s with
        pbuf := Memory.writeBytes s.pbuf 0 bs, tc := s.tmpl.length, pc := bs.length, sc := vs.length } ∧
      Memory.readBytes t.pbuf 0 bs.length = some bs ∧
      (c = false → step t = .next { t with plen := bs.length, act := .idle, result := .done }) ∧
      (c = true → bs.length ≤ s.cfg.payloadMax → step t = .next { t with plen := bs.length, act := .callNextId })

/-! ### FLD, decoding -/

/-- `FD.RUN` (41_field_codec R101, R109, R110): an undecodable template is refused first, at its leftmost variable-width
token whose end cannot be found (log 34); then the count, then the kinds (a placeholder without a kind is reported with
none, log 15); then the cursors are 0 and the token loop runs on what PBUF holds. -/
def Obligations.FieldDecodeStarts : Prop :=
  ∀ s : State,
    (decodeChecks s s.opnd.template →
      exec .fdRun s = .next { s with
        err := .none, result := .none, act := .fieldDec false, tmpl := s.opnd.template
        tc := 0, pc := 0, sc := 0, outOk := false }) ∧
    ∀ e, decodeRefused s s.opnd.template e → exec .fdRun s = .next (raised e { s with act := .fieldDec false })

/-- `FD.LIT` (41_field_codec R112): the raw payload byte under PC must be the literal; an exhausted payload and another
byte raise `DecodeMismatch` with what was observed and expected. -/
def Obligations.LiteralTokenIsMatched : Prop :=
  ∀ (s : State) (p : List Byte) (k : Byte), Memory.readBytes s.pbuf 0 s.plen = some p →
    (p[s.pc]? = some k → exec (.fdLit k) s = .next { s with pc := s.pc + 1, tc := s.tc + 1 }) ∧
    (∀ b, p[s.pc]? = some b → b ≠ k →
      exec (.fdLit k) s = .next (raised (.decodeMismatch (.expected s.pc (some b) k)) s)) ∧
    (s.plen ≤ s.pc → exec (.fdLit k) s = .next (raised (.decodeMismatch (.expected s.pc none k)) s))

/-- `width(i, c)` (41_field_codec R111), for a cursor inside the payload: a fixed-width code takes its own width; a
variable-width code takes the rest if it is last, else up to the first occurrence of the literal after it, else what
the known widths of all later tokens leave. A typed code is one of the five, `W` counts 4, `Q` 14, `q` 17 (30_encoding
R70) and a literal 1. -/
def Obligations.FieldWidthRule : Prop :=
  (∀ k, isTyped k = true ↔ k ∈ [0x57#8, 0x42#8, 0x54#8, 0x51#8, 0x71#8]) ∧
  (tokenWidth 0x57#8 = 4 ∧ tokenWidth 0x51#8 = 14 ∧ tokenWidth 0x71#8 = 17) ∧
  (∀ k, isTyped k = false → tokenWidth k = 1) ∧
  ∀ (p rest : List Byte) (c : Nat), c ≤ p.length →
    (∀ code w, (code, w) ∈ [(FieldCode.w, 4), (.q, 14), (.qs, 17)] →
      (c + w ≤ p.length → fieldWidth code rest p c = .ok w) ∧
      (p.length < c + w → fieldWidth code rest p c = .error (.short c code))) ∧
    (∀ code, code = FieldCode.b ∨ code = FieldCode.t →
      fieldWidth code [] p c = .ok (p.length - c) ∧
      (∀ l e, isTyped l = false → c ≤ e → p[e]? = some l → (∀ j, c ≤ j → j < e → p[j]? ≠ some l) →
        fieldWidth code (l :: rest) p c = .ok (e - c)) ∧
      (∀ l, isTyped l = false → (∀ j, c ≤ j → p[j]? ≠ some l) →
        fieldWidth code (l :: rest) p c = .error (.expected p.length none l)) ∧
      (∀ k, isTyped k = true → tokenWidth k + (rest.map tokenWidth).sum ≤ p.length - c →
        fieldWidth code (k :: rest) p c = .ok (p.length - c - (tokenWidth k + (rest.map tokenWidth).sum))) ∧
      (∀ k, isTyped k = true → p.length - c < tokenWidth k + (rest.map tokenWidth).sum →
        fieldWidth code (k :: rest) p c = .error (.short c code)))

/-- `FD.W` (41_field_codec R113): four uppercase hex digits are the INT they spell; the first byte that is none raises
`DecodeMismatch` with it; a payload with less than four bytes left raises `DecodeMismatch` (R111). -/
def Obligations.WFieldDecodes : Prop :=
  ∀ (s : State) (p : List Byte), Memory.readBytes s.pbuf 0 s.plen = some p → slotOutKind s s.sc = some .int →
    (∀ n0 n1 n2 n3 : Nat, n0 < 16 → n1 < 16 → n2 < 16 → n3 < 16 →
      (p.drop s.pc).take 4 = [upperHexDigit n0, upperHexDigit n1, upperHexDigit n2, upperHexDigit n3] →
      exec .fdW s = .next { s with
        pc := s.pc + 4, tc := s.tc + 1, sc := s.sc + 1
        slotOut := s.slotOut.set s.sc (some ⟨.int, some (.int (n0 * 4096 + n1 * 256 + n2 * 16 + n3 : Nat))⟩) }) ∧
    (∀ j b, s.pc + 4 ≤ p.length → j < 4 → p[s.pc + j]? = some b → (∀ n < 16, b ≠ upperHexDigit n) →
      (∀ i < j, ∃ n < 16, p[s.pc + i]? = some (upperHexDigit n)) →
      exec .fdW s = .next (raised (.decodeMismatch (.parseByte .w b)) { s with pc := s.pc + 4 })) ∧
    (p.length < s.pc + 4 → exec .fdW s = .next (raised (.decodeMismatch (.short s.pc .w)) s))

/-- `FD.T` (41_field_codec R115, R116) on a field of width `w`: without an escape marker the field itself fills a TEXT,
or a CHAR if it is one byte, and any other field for a CHAR raises; with one, the next instruction is ESC at the first
marker. -/
def Obligations.TFieldDecodes : Prop :=
  ∀ (s : State) (p raw : List Byte) (w : Nat), Memory.readBytes s.pbuf 0 s.plen = some p →
    fieldWidth .t (s.tmpl.drop (s.tc + 1)) p s.pc = .ok w → raw = (p.drop s.pc).take w →
    (0x10#8 ∉ raw → slotOutKind s s.sc = some .text →
      exec .fdT s = .next { s with
        pc := s.pc + w, tc := s.tc + 1, sc := s.sc + 1, act := .fieldDec s.act.inCall
        slotOut := s.slotOut.set s.sc (some ⟨.text, some (.text raw)⟩) }) ∧
    (∀ c, raw = [c] → c ≠ 0x10#8 → slotOutKind s s.sc = some .char →
      exec .fdT s = .next { s with
        pc := s.pc + w, tc := s.tc + 1, sc := s.sc + 1, act := .fieldDec s.act.inCall
        slotOut := s.slotOut.set s.sc (some ⟨.char, some (.char c)⟩) }) ∧
    (0x10#8 ∉ raw → raw.length ≠ 1 → slotOutKind s s.sc = some .char →
      exec .fdT s = .next (raised (.decodeMismatch (.parseText .t raw)) { s with pc := s.pc + w })) ∧
    (∀ j, raw[j]? = some 0x10#8 → 0x10#8 ∉ raw.take j →
      (slotOutKind s s.sc = some .text ∨ slotOutKind s s.sc = some .char) →
      exec .fdT s = .next { s with
        pc := s.pc + w, act := .unescape s.act.inCall .t, fldRaw := raw, fldJ := j, fldU := raw.take j })

/-- ESC (41_field_codec R116): a marker that is the field's last byte or is followed by a byte below 64 raises; else it
and the byte `x` after it yield `x - 64`, and the bytes up to the next marker pass unchanged; at the end of a `T` field
its slot is filled. The positions are payload indices (log 12). -/
def Obligations.EscapePairDecodes : Prop :=
  ∀ (s : State) (c : Bool), s.act = .unescape c .t →
    (s.fldRaw.length ≤ s.fldJ + 1 →
      exec .esc s =
        .next (raised (.decodeMismatch (.escape (s.pc - s.fldRaw.length + s.fldJ) none)) s)) ∧
    (∀ x, s.fldRaw[s.fldJ + 1]? = some x → x.toNat < 64 →
      exec .esc s =
        .next (raised (.decodeMismatch (.escape (s.pc - s.fldRaw.length + s.fldJ + 1) (some x))) s)) ∧
    (∀ x, s.fldRaw[s.fldJ + 1]? = some x → 64 ≤ x.toNat → 0x10#8 ∉ s.fldRaw.drop (s.fldJ + 2) →
      slotOutKind s s.sc = some .text →
      exec .esc s = .next { s with
        tc := s.tc + 1, sc := s.sc + 1, act := .fieldDec c
        slotOut := s.slotOut.set s.sc
          (some ⟨.text, some (.text (s.fldU ++ [x - 64#8] ++ s.fldRaw.drop (s.fldJ + 2)))⟩) }) ∧
    (∀ x j, s.fldRaw[s.fldJ + 1]? = some x → 64 ≤ x.toNat → (s.fldRaw.drop (s.fldJ + 2))[j]? = some 0x10#8 →
      0x10#8 ∉ (s.fldRaw.drop (s.fldJ + 2)).take j →
      exec .esc s = .next { s with
        fldJ := s.fldJ + 2 + j, fldU := s.fldU ++ [x - 64#8] ++ (s.fldRaw.drop (s.fldJ + 2)).take j })

/-- `FD.B` (41_field_codec R114, 30_encoding R75) on a field of width `w`. With an escape marker the next instruction is
ESC at the first marker, since R114 unescapes the field before it reads the numeral (90_conflicts C11). Without one,
`sign? digits` is the INT it spells if that is within the bounds, `sign? digits '.' digits` the REAL; a field that is no
numeral, an INT with a point and a number outside the bounds raise `DecodeMismatch`. -/
def Obligations.BFieldDecodes : Prop :=
  ∀ (s : State) (p raw : List Byte) (w : Nat), Memory.readBytes s.pbuf 0 s.plen = some p →
    fieldWidth .b (s.tmpl.drop (s.tc + 1)) p s.pc = .ok w → raw = (p.drop s.pc).take w →
    (∀ j, raw[j]? = some 0x10#8 → 0x10#8 ∉ raw.take j →
      (slotOutKind s s.sc = some .int ∨ slotOutKind s s.sc = some .real) →
      exec .fdB s = .next { s with
        pc := s.pc + w, act := .unescape s.act.inCall .b, fldRaw := raw, fldJ := j, fldU := raw.take j }) ∧
    (0x10#8 ∉ raw →
      (∀ (neg : Bool) (ip : List Byte) (v : Int), ip ≠ [] → ip.all isDigit = true →
        raw = (if neg then [0x2D#8] else []) ++ ip → v = (if neg then -(decValue ip : Int) else (decValue ip : Int)) →
        slotOutKind s s.sc = some .int → -(2 ^ (s.cfg.intBits - 1) : Int) ≤ v → v < (2 ^ (s.cfg.intBits - 1) : Int) →
        exec .fdB s = .next { s with
          pc := s.pc + w, tc := s.tc + 1, sc := s.sc + 1, act := .fieldDec s.act.inCall
          slotOut := s.slotOut.set s.sc (some ⟨.int, some (.int v)⟩) }) ∧
      (∀ (neg : Bool) (ip f : List Byte) (m : Int), ip ≠ [] → ip.all isDigit = true → f.all isDigit = true →
        raw = (if neg then [0x2D#8] else []) ++ ip ++ (if f = [] then [] else 0x2E#8 :: f) →
        m = (if neg then -(decValue (ip ++ f) : Int) else (decValue (ip ++ f) : Int)) →
        slotOutKind s s.sc = some .real → f.length ≤ s.cfg.realMaxScale →
        -(2 ^ (s.cfg.realMantBits - 1) : Int) ≤ m → m < (2 ^ (s.cfg.realMantBits - 1) : Int) →
        exec .fdB s = .next { s with
          pc := s.pc + w, tc := s.tc + 1, sc := s.sc + 1, act := .fieldDec s.act.inCall
          slotOut := s.slotOut.set s.sc (some ⟨.real, some (.real m f.length)⟩) }) ∧
      ((∀ (neg : Bool) (ip f : List Byte), ip ≠ [] → ip.all isDigit = true → f.all isDigit = true →
          raw ≠ (if neg then [0x2D#8] else []) ++ ip ++ (if f = [] then [] else 0x2E#8 :: f)) →
        (slotOutKind s s.sc = some .int ∨ slotOutKind s s.sc = some .real) →
        exec .fdB s = .next (raised (.decodeMismatch (.parseText .b raw)) { s with pc := s.pc + w })) ∧
      (0x2E#8 ∈ raw → slotOutKind s s.sc = some .int →
        exec .fdB s = .next (raised (.decodeMismatch (.parseText .b raw)) { s with pc := s.pc + w })) ∧
      (∀ (neg : Bool) (ip : List Byte) (v : Int), ip ≠ [] → ip.all isDigit = true →
        raw = (if neg then [0x2D#8] else []) ++ ip → v = (if neg then -(decValue ip : Int) else (decValue ip : Int)) →
        slotOutKind s s.sc = some .int →
        (v < -(2 ^ (s.cfg.intBits - 1) : Int) ∨ (2 ^ (s.cfg.intBits - 1) : Int) ≤ v) →
        exec .fdB s = .next (raised (.decodeMismatch (.parseText .b raw)) { s with pc := s.pc + w })) ∧
      (∀ (neg : Bool) (ip f : List Byte) (m : Int), ip ≠ [] → ip.all isDigit = true → f.all isDigit = true →
        raw = (if neg then [0x2D#8] else []) ++ ip ++ (if f = [] then [] else 0x2E#8 :: f) →
        m = (if neg then -(decValue (ip ++ f) : Int) else (decValue (ip ++ f) : Int)) →
        slotOutKind s s.sc = some .real →
        (s.cfg.realMaxScale < f.length ∨ m < -(2 ^ (s.cfg.realMantBits - 1) : Int) ∨
          (2 ^ (s.cfg.realMantBits - 1) : Int) ≤ m) →
        exec .fdB s = .next (raised (.decodeMismatch (.parseText .b raw)) { s with pc := s.pc + w })))

/-- `FD.Q` and `FD.q` (41_field_codec R117, R118): the digits of the layout are the DATETIME they spell, with second 0
for `Q`; the year is the two digits; no calendar check. A field that does not hold its layout raises at the first
offending offset (60_exceptions R236 (d)): a separator position with what was observed and expected, a digit position
with the byte. The positions are payload indices (log 12). -/
def Obligations.DateFieldsDecode : Prop :=
  (∀ (s : State) (p : List Byte) (v : DateTime) (d2 : Nat → List Byte) (bs : List Byte),
      Memory.readBytes s.pbuf 0 s.plen = some p → slotOutKind s s.sc = some .datetime →
      (∀ n, d2 n = [decimalDigit (n / 10), decimalDigit (n % 10)]) →
      v.day ≤ 99 → v.month ≤ 99 → v.year.val ≤ 99 → v.hour ≤ 99 → v.minute ≤ 99 → v.second ≤ 99 →
      bs = d2 v.day ++ [0x2D#8] ++ d2 v.month ++ [0x2D#8] ++ d2 v.year.val ++ [0x20#8] ++ d2 v.hour ++ [0x2D#8] ++
        d2 v.minute →
      ((p.drop s.pc).take 14 = bs →
        exec .fdQ s = .next { s with
          pc := s.pc + 14, tc := s.tc + 1, sc := s.sc + 1
          slotOut := s.slotOut.set s.sc (some ⟨.datetime, some (.datetime { v with second := 0 })⟩) }) ∧
      ((p.drop s.pc).take 17 = bs ++ [0x2D#8] ++ d2 v.second →
        exec .fdQs s = .next { s with
          pc := s.pc + 17, tc := s.tc + 1, sc := s.sc + 1
          slotOut := s.slotOut.set s.sc (some ⟨.datetime, some (.datetime v)⟩) })) ∧
  ∀ (s : State) (p : List Byte) (i : Instr) (code : FieldCode) (layout : List DatePos) (o : Nat) (b : Byte),
      (i, code, layout) ∈ [(Instr.fdQ, FieldCode.q, layoutQ), (.fdQs, .qs, layoutQs)] →
      Memory.readBytes s.pbuf 0 s.plen = some p → slotOutKind s s.sc = some .datetime →
      s.pc + layout.length ≤ p.length → p[s.pc + o]? = some b →
      (∀ o' < o, (layout[o']? = some .digit → ∃ n < 10, p[s.pc + o']? = some (decimalDigit n)) ∧
        ∀ x, layout[o']? = some (.sep x) → p[s.pc + o']? = some x) →
      (∀ x, layout[o]? = some (.sep x) → b ≠ x →
        exec i s = .next (raised (.decodeMismatch (.expected (s.pc + o) (some b) x))
          { s with pc := s.pc + layout.length })) ∧
      (layout[o]? = some .digit → (∀ n < 10, b ≠ decimalDigit n) →
        exec i s = .next (raised (.decodeMismatch (.parseAt code (s.pc + o) b)) { s with pc := s.pc + layout.length }))

/-- The end of `FD.RUN` (41_field_codec R110, R119): left-over payload raises; else the operation ends, and inside
`SES.CALL` the call is Decoded (44_command_session R201). -/
def Obligations.FieldDecodeEnds : Prop :=
  ∀ (s : State) (c : Bool), s.act = .fieldDec c → hostWaits s = true → s.tmpl.length ≤ s.tc →
    (s.pc ≠ s.plen → step s = .next (raised (.decodeMismatch (.trailing s.pc)) s)) ∧
    (s.pc = s.plen → c = false →
      step s = .next { s with act := .idle, result := .done, outOk := true }) ∧
    (s.pc = s.plen → c = true →
      step s = .next { s with
        act := .idle, result := .response s.rxid s.rxnum s.sr, outOk := true, ses := .decoded })

/-- The frame of the decoding tokens and of ESC: they raise, or change the cursors, the working registers of the escape
pair and at most the placeholder under SC, and no buffer byte (41_field_codec R110). -/
def Obligations.DecodingTokensStoreOnlyInTheirSlot : Prop :=
  ∀ (i : Instr) (s t : State), (i ∈ [Instr.fdW, .fdB, .fdT, .fdQ, .fdQs, .esc] ∨ ∃ k, i = .fdLit k) →
    exec i s = .next t →
    (∃ e n, t = raised e { s with pc := n }) ∨
      (t = { s with
        pc := t.pc, tc := t.tc, sc := t.sc, slotOut := t.slotOut, act := t.act
        fldRaw := t.fldRaw, fldJ := t.fldJ, fldU := t.fldU } ∧
        ∀ j, j ≠ s.sc → t.slotOut[j]? = s.slotOut[j]?)

/-- Unescaping undoes escaping (41_field_codec R121). -/
def Obligations.UnescapeUndoesEscape : Prop :=
  ∀ s : List Byte, bytesT (.text s) = some (escape s) ∧ unescape 0 (escape s) = .ok s

/-- The ESC steps compute `unescape` (41_field_codec R116): from the state in which `FD.T` or `FD.B` leaves a
field (no marker before `fldJ`, the bytes before it taken) the machine fills the slot with the value of the unescaped
text, raises where that text is no value for the placeholder (R114, R115), or raises at the bad escape pair (its
position: log 12). -/
def Obligations.EscapeStepsComputeUnescape : Prop :=
  ∀ (s : State) (c : Bool) (vc : VarCode), s.act = .unescape c vc → hostWaits s = true →
    s.fldU = s.fldRaw.take s.fldJ → 0x10#8 ∉ s.fldRaw.take s.fldJ → s.fldJ ≤ s.fldRaw.length →
    (∀ u k v, unescape 0 s.fldRaw = .ok u → slotOutKind s s.sc = some k → valueOf s.cfg vc k u = some v →
      ∃ (n : Nat) (t : State), runSteps n s = .next t ∧
        t = { s with
          act := .fieldDec c, slotOut := s.slotOut.set s.sc (some ⟨k, some v⟩), sc := s.sc + 1, tc := s.tc + 1
          fldRaw := t.fldRaw, fldJ := t.fldJ, fldU := t.fldU }) ∧
    (∀ u k, unescape 0 s.fldRaw = .ok u → slotOutKind s s.sc = some k → valueOf s.cfg vc k u = none →
      ∃ (n : Nat) (t : State), runSteps n s = .next t ∧
        t = raised (.decodeMismatch (.parseText vc.code u)) { s with fldJ := t.fldJ, fldU := t.fldU }) ∧
    (∀ j o, unescape 0 s.fldRaw = .error (j, o) →
      ∃ (n : Nat) (t : State), runSteps n s = .next t ∧
        t = raised (.decodeMismatch (.escape (s.pc - s.fldRaw.length + j) o))
          { s with fldJ := t.fldJ, fldU := t.fldU })

/-- One-field round trips (41_field_codec R120, R122): `W`, `B` and date-time fields decode to the value that was
encoded, the year modulo 100, and the bytes of `FE.W`, `FE.Q` and `FE.q` have the widths 4, 14 and 17 that `FD.RUN`
assumes. -/
def Obligations.FieldsRoundTrip : Prop :=
  (∀ (v : Int) (bs : List Byte), bytesW (.int v) = some bs → (unhexAll 0 bs).toOption.map Int.ofNat = some v) ∧
  (∀ (c : Config.Configuration) (v : SlotVal) (bs : List Byte), bytesB c v = some bs → valueB c v.kind bs = some v) ∧
  (∀ (v : DateTime) (bs : List Byte), bytesQ (.datetime v) = some bs →
    checkLayout .q 0 layoutQ bs = none ∧
    [num2 bs 0, num2 bs 3, num2 bs 6, num2 bs 9, num2 bs 12] = [v.day, v.month, v.year.val % 100, v.hour, v.minute]) ∧
  (∀ (v : DateTime) (bs : List Byte), bytesQs (.datetime v) = some bs →
    checkLayout .qs 0 layoutQs bs = none ∧
    [num2 bs 0, num2 bs 3, num2 bs 6, num2 bs 9, num2 bs 12, num2 bs 15] =
      [v.day, v.month, v.year.val % 100, v.hour, v.minute, v.second]) ∧
  (∀ (v : SlotVal) (bs : List Byte),
    (bytesW v = some bs → bs.length = 4 ∧ fixedWidth .w = some bs.length) ∧
    (bytesQ v = some bs → bs.length = 14 ∧ fixedWidth .q = some bs.length) ∧
    (bytesQs v = some bs → bs.length = 17 ∧ fixedWidth .qs = some bs.length))

/-! ### FRM -/

/-- `FRM.ENC` with EXPST = 0 (42_frame_codec R140): the host frame, byte for byte, in FBUF and as the result; a payload
above PAYLOAD_MAX, which is 219 (00_scope R8), raises `PayloadTooLong(n)`. -/
def Obligations.HostFrameIsAssembled : Prop :=
  State.reset.cfg.payloadMax = 219 ∧
  ∀ (s : State) (p : List Byte), Memory.readBytes s.pbuf 0 s.plen = some p →
    (∀ (h f : List Byte) (d : Quad), p.length ≤ s.cfg.payloadMax →
      h = [0x01#8, BitVec.ofNat 8 (36 + p.length), s.opnd.id, s.opnd.num] →
      d = bccRender (bccSum s.cfg.coverage h p none) →
      f = h ++ p ++ [0x05#8] ++ [d.b0, d.b1, d.b2, d.b3] ++ [0x03#8] →
      exec .frmEncHost s = .next { s with
        err := .none, result := .frame f, expst := false, fbuf := Memory.writeBytes s.fbuf 0 f
        flen := p.length + 10 }) ∧
    (s.cfg.payloadMax < p.length →
      exec .frmEncHost s = .next (raised (.payloadTooLong p.length) { s with expst := false }))

/-- `FRM.ENC` with EXPST = 1 (42_frame_codec R141): the device frame with marker and status block; a payload above
PAYLOAD_MAX less the seven status bytes, which is 212 (00_scope R8), raises `PayloadTooLong(n)`. -/
def Obligations.DeviceFrameIsAssembled : Prop :=
  State.reset.cfg.payloadMax = 212 + 7 ∧
  ∀ (s : State) (p : List Byte), Memory.readBytes s.pbuf 0 s.plen = some p →
    (∀ (h f : List Byte) (d : Quad), p.length + 7 ≤ s.cfg.payloadMax →
      h = [0x01#8, BitVec.ofNat 8 (36 + p.length + 7), s.opnd.id, s.opnd.num] →
      d = bccRender (bccSum s.cfg.coverage h p (some s.opnd.status)) →
      f = h ++ p ++ [0x04#8] ++ s.opnd.status.toList ++ [0x05#8] ++ [d.b0, d.b1, d.b2, d.b3] ++ [0x03#8] →
      exec .frmEncDevice s = .next { s with
        err := .none, result := .frame f, expst := true, fbuf := Memory.writeBytes s.fbuf 0 f
        flen := p.length + 17 }) ∧
    (s.cfg.payloadMax < p.length + 7 →
      exec .frmEncDevice s = .next (raised (.payloadTooLong p.length) { s with expst := true }))

/-- `FRM.ENC` after an error, when the payload is free (60_exceptions R241; log 9): whatever the free payload `p` is, the
operation delivers the frame of `p`, or raises `PayloadTooLong` with the length of `p`; nothing but what R140 and R141
name moves. -/
def Obligations.FrameEncodeRunsOnAFreePayload : Prop :=
  ∀ (i : Instr) (e : Err) (s t : State) (st : Option DeviceStatus), t = raised e s →
    (i = .frmEncHost ∧ st = none) ∨ (i = .frmEncDevice ∧ st = some s.opnd.status) →
    ∃ p, Memory.readBytes t.pbuf 0 t.plen = some p ∧ p.length = t.plen ∧ p.length ≤ 1024 ∧
      (lengthPayload p.length st ≤ s.cfg.payloadMax →
        exec i t = .next { t with
          err := .none, result := .frame (frameBytes s.cfg.coverage s.opnd.id s.opnd.num p st), expst := st.isSome
          fbuf := Memory.writeBytes t.fbuf 0 (frameBytes s.cfg.coverage s.opnd.id s.opnd.num p st)
          flen := (frameBytes s.cfg.coverage s.opnd.id s.opnd.num p st).length }) ∧
      (s.cfg.payloadMax < lengthPayload p.length st →
        exec i t = .next (raised (.payloadTooLong p.length) { t with expst := st.isSome }))

/-- A frame has `LEN - 26` bytes, LEN its second byte (30_encoding R63, R64). -/
def Obligations.FrameByteCount : Prop :=
  ∀ (c : Config.Coverage) (id num : Byte) (p : List Byte) (st : Option DeviceStatus),
    lengthPayload p.length st ≤ 219 → ∃ len : Byte, (frameBytes c id num p st)[1]? = some len ∧
      len.toNat = 36 + lengthPayload p.length st ∧
      (frameBytes c id num p st).length = lengthPayload p.length st + 10 ∧
      (frameBytes c id num p st).length = len.toNat - 26 ∧ 10 ≤ (frameBytes c id num p st).length ∧
      (frameBytes c id num p st).length ≤ 229

/-- `FRM.DEC` starts (42_frame_codec R142): WAIT_START, BUSYCNT 0, FLEN 0, EXPST latched. Then the first byte of a
response (R143): START is stored and the header comes next; BUSY is counted and absorbed, and past a limit raises; NAK
and any other byte fail at once. RXCNT in WAIT_START and at the start of HDR is log 16. -/
def Obligations.FrameDecodeStartsAndFirstByteActs : Prop :=
  ∀ s : State,
    (∀ e : Bool, exec (.frmDec e) s = .next { s with
      err := .none, result := .none, act := .frameDec false, expst := e, rxs := .waitStart, rxcnt := 1
      busycnt := 0, flen := 0, rxUsed := 0, idOk := false }) ∧
    exec .rxStart s = .next { s with fbuf := Memory.write s.fbuf 0 0x01#8, rxs := .hdr, rxcnt := 3 } ∧
    (s.cfg.busyLimit = none → exec .rxBusy s = .next { s with busycnt := s.busycnt + 1 }) ∧
    (∀ l, s.cfg.busyLimit = some l → s.busycnt + 1 ≤ l → exec .rxBusy s = .next { s with busycnt := s.busycnt + 1 }) ∧
    (∀ l, s.cfg.busyLimit = some l → l < s.busycnt + 1 →
      exec .rxBusy s = .next (raised (.busyLimit (s.busycnt + 1)) { s with busycnt := s.busycnt + 1 })) ∧
    exec .rxNak s = .next (raised .protocolReject s) ∧
    ∀ b, exec (.rxBad b) s = .next (raised (.malformedFrame 0 b (.byte 0x01#8)) s)

/-- The header (42_frame_codec R144, R145): the three bytes go to RXLEN, RXID and RXNUM; after the third they are stored
in FBUF[1..3], and a length byte below 36 (43 with EXPST) raises at position 1, else `n` payload bytes come next. RXCNT
inside the header is log 16. -/
def Obligations.HeaderIsReadAndLengthChecked : Prop :=
  ∀ (s : State) (c : Bool) (b : Byte) (rest : List ChanAnswer), s.act = .frameDec c → hostWaits s = true →
    s.rxs = .hdr → s.rx = .byte b :: rest →
    (s.rxcnt = 3 → step s = .next { s with rx := rest, rxUsed := s.rxUsed + 1, rxlen := b, rxcnt := 2 }) ∧
    (s.rxcnt = 2 → step s = .next { s with rx := rest, rxUsed := s.rxUsed + 1, rxid := b, rxcnt := 1 }) ∧
    (∀ min f, s.rxcnt = 1 → min = (if s.expst then 43 else 36) →
      f = Memory.write (Memory.write (Memory.write s.fbuf 1 s.rxlen) 2 s.rxid) 3 b →
      (min ≤ s.rxlen.toNat → step s = .next { s with
        rx := rest, rxUsed := s.rxUsed + 1, rxnum := b, fbuf := f, rxcnt := s.rxlen.toNat - min, rxs := .payload }) ∧
      (s.rxlen.toNat < min → step s = .next (raised (.malformedFrame 1 s.rxlen (.atLeast min)) { s with
        rx := rest, rxUsed := s.rxUsed + 1, rxnum := b, fbuf := f, rxcnt := 0 })))

/-- The payload, the status block and the checksum digits (42_frame_codec R146, R148, R150): any byte is data; byte `j`
of the payload goes to PBUF[j] and FBUF[4 + j], the block to its temporary and FBUF, the digits to theirs. The payload
ends when all its bytes are read: PLEN is `n` and the marker or the terminator comes next. RXCNT outside PAYLOAD is
log 16. -/
def Obligations.DataBytesAreStored : Prop :=
  ∀ (s : State) (c : Bool) (n : Nat), s.act = .frameDec c → hostWaits s = true →
    n = s.rxlen.toNat - (if s.expst then 43 else 36) →
    (s.rxs = .payload → s.rxcnt = 0 → step s = .next { s with
      plen := n, rxs := if s.expst then .stmark else .pterm, rxcnt := 1 }) ∧
    ∀ (b : Byte) (rest : List ChanAnswer), s.rx = .byte b :: rest →
      (∀ j, s.rxs = .payload → 0 < s.rxcnt → j = n - s.rxcnt →
        step s = .next { s with
          rx := rest, rxUsed := s.rxUsed + 1, pbuf := Memory.write s.pbuf j b
          fbuf := Memory.write s.fbuf (4 + j) b, rxcnt := s.rxcnt - 1 }) ∧
      (∀ j, s.rxs = .status → 2 ≤ s.rxcnt → j = 6 - s.rxcnt →
        step s = .next { s with
          rx := rest, rxUsed := s.rxUsed + 1, rxSt := s.rxSt.setByte j b
          fbuf := Memory.write s.fbuf (5 + n + j) b, rxcnt := s.rxcnt - 1 }) ∧
      (s.rxs = .status → s.rxcnt = 1 →
        step s = .next { s with
          rx := rest, rxUsed := s.rxUsed + 1, rxSt := { s.rxSt with b5 := b }
          fbuf := Memory.write s.fbuf (5 + n + 5) b, rxs := .pterm, rxcnt := 1 }) ∧
      (∀ j, s.rxs = .bcc → 2 ≤ s.rxcnt → j = 4 - s.rxcnt →
        step s = .next { s with
          rx := rest, rxUsed := s.rxUsed + 1, rxBcc := s.rxBcc.setByte j b
          fbuf := Memory.write s.fbuf (rxQ s + 1 + j) b, rxcnt := s.rxcnt - 1 }) ∧
      (s.rxs = .bcc → s.rxcnt = 1 →
        step s = .next { s with
          rx := rest, rxUsed := s.rxUsed + 1, rxBcc := { s.rxBcc with b3 := b }
          fbuf := Memory.write s.fbuf (rxQ s + 4) b, rxs := .fterm, rxcnt := 1 })

/-- The structural bytes (42_frame_codec R147, R149, R151, 30_encoding R68): the marker at index 4 + n, the payload
terminator at q, the frame terminator at q + 5 with FLEN = q + 6; each stores its byte at that index of FBUF and no
other byte changes; any other byte there is `MalformedFrame`. RXCNT in the next state is log 16. -/
def Obligations.StructuralBytesAreRequired : Prop :=
  ∀ (s : State) (n q : Nat), n = s.rxlen.toNat - (if s.expst then 43 else 36) →
    q = 4 + n + (if s.expst then 7 else 0) →
    exec .stmark s = .next { s with fbuf := Memory.write s.fbuf (4 + n) 0x04#8, rxs := .status, rxcnt := 6 } ∧
    exec .pterm s = .next { s with fbuf := Memory.write s.fbuf q 0x05#8, rxs := .bcc, rxcnt := 4 } ∧
    exec .fterm s = .next { s with
      fbuf := Memory.write s.fbuf (q + 5) 0x03#8, flen := q + 6, rxs := .check, rxcnt := 0 } ∧
    (∀ a x b, x ≠ a → Memory.read (Memory.write s.fbuf a b) x = Memory.read s.fbuf x) ∧
    (∀ (c : Bool) (b : Byte) (rest : List ChanAnswer) (want : Byte) (pos : Nat), s.act = .frameDec c →
      hostWaits s = true → s.rx = .byte b :: rest →
      (s.rxs, want, pos) ∈ [(Rxs.stmark, 0x04#8, 4 + n), (.pterm, 0x05#8, q), (.fterm, 0x03#8, q + 5)] → b ≠ want →
      step s = .next (raised (.malformedFrame pos b (.byte want)) { s with rx := rest, rxUsed := s.rxUsed + 1 }))

/-- The channel in a reading state (42_frame_codec R154, 60_exceptions R250, 70_reset_and_hazards R272): no answer
leaves the machine as it is; `fail` raises `ChannelFail` with the state and the bytes consumed. -/
def Obligations.ChannelWaitsAndFails : Prop :=
  ∀ (s : State) (c : Bool), s.act = .frameDec c → hostWaits s = true →
    (s.rxs ∈ [Rxs.waitStart, .hdr, .stmark, .status, .pterm, .bcc, .fterm] ∨ (s.rxs = .payload ∧ 0 < s.rxcnt)) →
    (s.rx = [] → step s = .next s) ∧
    (∀ rest, s.rx = .fail :: rest →
      step s = .next (raised (.channelFail s.rxs s.rxUsed) { s with rx := rest }))

/-- CHECK and DONE (42_frame_codec R152, R153): the digits must equal the recomputed ones byte for byte; then, with
EXPST = 1, all six bytes of SR are written at once and SRV is set, and the operation ends with its result. -/
def Obligations.FrameIsCheckedThenAccepted : Prop :=
  ∀ (s : State) (c : Bool) (h p : List Byte) (st : Option DeviceStatus), s.act = .frameDec c → hostWaits s = true →
    st = (if s.expst then some s.rxSt else none) →
    (s.rxs = .check → Memory.readBytes s.fbuf 0 4 = some h → Memory.readBytes s.pbuf 0 (rxN s) = some p →
      (bccRender (bccSum s.cfg.coverage h p st) = s.rxBcc → step s = .next { s with rxs := .done }) ∧
      (bccRender (bccSum s.cfg.coverage h p st) ≠ s.rxBcc →
        step s = .next (raised (.checksumMismatch (bccRender (bccSum s.cfg.coverage h p st)) s.rxBcc) s))) ∧
    (s.rxs = .done → c = false → Memory.readBytes s.pbuf 0 s.plen = some p →
      (s.expst = true → step s = .next { s with
        sr := s.rxSt, srv := true, idOk := true, act := .idle
        result := .received s.rxid s.rxnum p (some s.rxSt) }) ∧
      (s.expst = false → step s = .next { s with
        idOk := true, act := .idle, result := .received s.rxid s.rxnum p none })) ∧
    (s.rxs = .done → c = true → s.expst = true →
      step s = .next { s with sr := s.rxSt, srv := true, idOk := true, act := .callStatus })

/-- The frame round trip (42_frame_codec R156): feeding the bytes of `FRM.ENC` to `FRM.DEC` with the same EXPST and
coverage ends in DONE with the same id, number, payload and status, and consumes exactly the frame. -/
def Obligations.FrameRoundTrip : Prop :=
  ∀ (s : State) (id num : Byte) (p : List Byte) (st : Option DeviceStatus) (rest : List ChanAnswer) (f : List Byte),
    s.act = .frameDec false → s.rxs = .waitStart → hostWaits s = true → s.expst = st.isSome →
    lengthPayload p.length st ≤ 219 → f = frameBytes s.cfg.coverage id num p st →
    s.rx = f.map ChanAnswer.byte ++ rest →
    ∃ t : State, runSteps (f.length + 3) s = .next t ∧ t.rxs = .done ∧ t.act = .idle ∧
      t.err = s.err ∧ t.result = .received id num p st ∧ t.rx = rest ∧ t.rxUsed = s.rxUsed + f.length ∧
      t.rxid = id ∧ t.rxnum = num ∧ Memory.readBytes t.pbuf 0 t.plen = some p ∧
      Memory.readBytes t.fbuf 0 t.flen = some f ∧ t.mid = s.mid ∧ t.tx = s.tx ∧
      (∀ b, st = some b → t.sr = b ∧ t.srv = true) ∧ (st = none → t.sr = s.sr ∧ t.srv = s.srv)

/-! ### STS -/

/-- Each of the 22 named flags (43_device_status R170 to R192): the bit of the status register at the position
STATUS_MAP gives the flag, `fiscalized` at (5,3) whatever the map; while SRV = 0 the query raises `ParamMismatch`.
A query that is answered changes nothing else. The record of the refusal is log 15, that it is an error like any other
log 11. -/
def Obligations.NamedFlagsReadTheirBit : Prop :=
  ∀ (s : State) (k : Nat) (i : Instr) (f : Flag), flagRows[k]? = some i → allFlags[k]? = some f →
    (s.srv = true → exec i s = .next { s with
      err := .none, result := .flag (statusBit s.sr (s.cfg.statusMap.pos f)) }) ∧
    (s.srv = false → exec i s = .next (raised (.paramMismatch .noStatus) s)) ∧
    (f = .fiscalized → k = 19 ∧ s.cfg.statusMap.pos f = ⟨5, 3⟩)

/-- The generic form of `ST.FLAG` (43_device_status R170, 60_exceptions R234): an index below 22 is the named row of
that index, and an index of 22 or more is `IllegalOp`, which changes only ERR. -/
def Obligations.GenericFlagFormIsTheNamedRow : Prop :=
  ∀ (s : State) (index : BitVec 5),
    (∀ i, flagRows[index.toNat]? = some i → exec (.stFlag index) s = exec i s) ∧
    (index.toNat < 22 → ∃ i, flagRows[index.toNat]? = some i) ∧
    (index.toNat < 22 → s.srv = true → ∃ b, exec (.stFlag index) s = .next { s with
      err := .none, result := .flag b }) ∧
    (22 ≤ index.toNat → exec (.stFlag index) s = .next { s with err := .illegalOp })

/-- The aggregates (43_device_status R193, R194): `ST.HASERR` is true when one of the 14 error flags is, `ST.HASWARN`
when one of the 5 warning flags is. The record of the refusal while SRV = 0 is log 15, that it is an error like any other
log 11. -/
def Obligations.AggregatesAreTheirFlags : Prop :=
  ∀ s : State,
    (s.srv = true →
      (∃ b, exec .stHasErr s = .next { s with err := .none, result := .flag b } ∧
        (b = true ↔ ∃ f ∈ errorFlags, statusBit s.sr (s.cfg.statusMap.pos f) = true)) ∧
      (∃ b, exec .stHasWarn s = .next { s with err := .none, result := .flag b } ∧
        (b = true ↔ ∃ f ∈ warningFlags, statusBit s.sr (s.cfg.statusMap.pos f) = true))) ∧
    (s.srv = false →
      exec .stHasErr s = .next (raised (.paramMismatch .noStatus) s) ∧
      exec .stHasWarn s = .next (raised (.paramMismatch .noStatus) s)) ∧
    errorFlags.length = 14 ∧ warningFlags.length = 5

/-- The source's example block (43_device_status R193, R195): for every admissible map it has `fiscalized` and no error
flag; all-zero has no flag and all-ones has both aggregates; and the free map that stands until the host supplies one is
admissible, whatever it is (log 6). -/
def Obligations.ExampleBlockHasNoError : Prop :=
  (∀ m : Config.StatusMap, m.admissible = true →
    hasErr m ⟨0x80#8, 0x80#8, 0x80#8, 0x85#8, 0x80#8, 0xBA#8⟩ = false ∧
    flagOf m .fiscalized ⟨0x80#8, 0x80#8, 0x80#8, 0x85#8, 0x80#8, 0xBA#8⟩ = true ∧
    hasErr m DeviceStatus.zero = false ∧ hasWarn m DeviceStatus.zero = false ∧
    hasErr m ⟨0xFF#8, 0xFF#8, 0xFF#8, 0xFF#8, 0xFF#8, 0xFF#8⟩ = true ∧
    hasWarn m ⟨0xFF#8, 0xFF#8, 0xFF#8, 0xFF#8, 0xFF#8, 0xFF#8⟩ = true) ∧
  freeStatusMap.admissible = true

/-! ### SEQ -/

/-- `SES.NEXTID` (44_command_session R200, R207): the current id is the result, and MID advances, 32 after 127; from
MID = 32, after `k` takes MID is `32 + (k mod 96)`. Inside `SES.CALL` the frame is built next. -/
def Obligations.NextIdTakesAndAdvances : Prop :=
  (∀ s : State, exec .sesNextId s = .next { s with
    callId := s.mid
    mid := if s.mid = 127#8 then 32#8 else BitVec.ofNat 8 (s.mid.toNat + 1)
    act := if s.act = .callNextId then .callFrame else s.act }) ∧
  ∀ k : Nat, ((nextMid^[k]) 32#8).toNat = 32 + k % 96

/-- `SES.CALL` starts (44_command_session R201, 60_exceptions R231): Idle and RETRYCNT 0, the descriptor is looked up;
an unknown command raises with nothing written and MID where it was. -/
def Obligations.CallLooksUpItsCommand : Prop :=
  ∀ s : State,
    (∀ d, tableLookup s.table s.opnd.cmd = some d →
      exec .sesCall s = .next { s with
        err := .none, result := .none, ses := .idle, retrycnt := 0, act := .callRound, desc := d }) ∧
    (tableLookup s.table s.opnd.cmd = none →
      exec .sesCall s = .next (raised (.unknownCommand s.opnd.cmd)
        { s with ses := .idle, retrycnt := 0, act := .callRound }))

/-- One round of `SES.CALL` up to the response (44_command_session R201, 20_memory R49): Sending; the payload is encoded
with the host format of the descriptor, or the call fails at its static checks (the record of a slot that holds no value
is log 15, DEDUCED); after the payload is encoded its length
is checked before the id is taken; the request frame carries that id and is written as a whole (a write has no failure,
log 27); then the response is awaited with EXPST = 1 (RXCNT there is log 16). -/
def Obligations.CallSendsOneFrameThenReads : Prop :=
  ∀ s : State, hostWaits s = true →
    (s.act = .callRound → step s = .next { s with ses := .sending, act := .callEncode }) ∧
    (s.act = .callEncode → encodeChecks s s.desc.hostFormat →
      step s = .next { s with act := .fieldEnc true, tmpl := s.desc.hostFormat, tc := 0, pc := 0, sc := 0 }) ∧
    (∀ e, s.act = .callEncode → encodeRefused s s.desc.hostFormat e →
      step s = .next (raised e { s with act := .fieldEnc true })) ∧
    (s.act = .fieldEnc true → s.tmpl.length ≤ s.tc → s.pc ≤ s.cfg.payloadMax →
      step s = .next { s with plen := s.pc, act := .callNextId }) ∧
    (s.act = .fieldEnc true → s.tmpl.length ≤ s.tc → s.cfg.payloadMax < s.pc →
      step s = .next (raised (.payloadTooLong s.pc) { s with plen := s.pc })) ∧
    (∀ p f, s.act = .callFrame → Memory.readBytes s.pbuf 0 s.plen = some p → p.length ≤ s.cfg.payloadMax →
      f = frameBytes s.cfg.coverage s.callId s.desc.number p none →
      step s = .next { s with
        expst := false, fbuf := Memory.writeBytes s.fbuf 0 f, flen := f.length, act := .callWrite }) ∧
    (∀ f, s.act = .callWrite → Memory.readBytes s.fbuf 0 s.flen = some f →
      step s = .next { s with
        tx := s.tx ++ f, ses := .awaitingResponse, act := .frameDec true, expst := true, rxs := .waitStart
        rxcnt := 1, busycnt := 0, flen := 0, rxUsed := 0, idOk := false })

/-- What `SES.CALL` does with an accepted response (44_command_session R201, R203, 60_exceptions R236 (b)): the retry
predicate comes before the error flags, a retry past the limit raises, an error flag raises `DeviceStatusError` with the
six bytes, and only then is the payload decoded with the device format of the descriptor, or the call fails at its
static checks (logs 15 and 34 as for `FD.RUN`). -/
def Obligations.ResponseStatusDecidesTheCall : Prop :=
  ∀ s : State, hostWaits s = true → s.act = .callStatus →
    (predHolds s.cfg.retryPred s.sr = true →
      (s.cfg.retryLimit = none ∨ ∃ l, s.cfg.retryLimit = some l ∧ s.retrycnt + 1 ≤ l) →
      step s = .next { s with ses := .retryRequested, retrycnt := s.retrycnt + 1, act := .callRound }) ∧
    (∀ l, predHolds s.cfg.retryPred s.sr = true → s.cfg.retryLimit = some l → l < s.retrycnt + 1 →
      step s = .next (raised (.retryLimit s.sr)
        { s with ses := .retryRequested, retrycnt := s.retrycnt + 1 })) ∧
    (predHolds s.cfg.retryPred s.sr = false → hasErr s.cfg.statusMap s.sr = true →
      step s = .next (raised (.deviceStatusError s.sr) s)) ∧
    (∀ e, predHolds s.cfg.retryPred s.sr = false → hasErr s.cfg.statusMap s.sr = false →
      decodeRefused s s.desc.deviceFormat e → step s = .next (raised e { s with act := .fieldDec true })) ∧
    (predHolds s.cfg.retryPred s.sr = false → hasErr s.cfg.statusMap s.sr = false →
      decodeChecks s s.desc.deviceFormat →
      step s = .next { s with
        act := .fieldDec true, tmpl := s.desc.deviceFormat, tc := 0, pc := 0, sc := 0, outOk := false })

/-- The sequencer's moves (44_command_session R202), as one step of the model shows them: from every sound state a step
changes SES only along `sesMove`. Two of its moves differ from the rule's by the model's step granularity (log 1, DESIGN
CHOICE). A call starts again from Idle and an unknown command fails in that same step, so the rule's Idle to Failed is
seen as Decoded to Failed too. The retry limit is raised in the step that sets RetryRequested, so the rule's RetryRequested to
Failed is seen as AwaitingResponse to Failed. -/
def Obligations.SequencerMovesAsTheDiagram : Prop :=
  ∀ s t : State, SoundState s → step s = .next t → t.ses ≠ s.ses → sesMove s.ses t.ses

/-! ### Errors, refusals, reset -/

/-- Taking an error (60_exceptions R240, R241): ERR gets it, the operation ends with no other output, RXS becomes FAIL
when `FRM.DEC` ran and SES Failed inside `SES.CALL`; MID, SR, SRV, the slots of the host, the kinds of all placeholders
(whatever OUT_CNT is), the configuration, the table, the counters, the cursors and the streams are as they were; PBUF,
PLEN, FBUF, FLEN, RXID, RXNUM and RXLEN are free, of which only that the payload can be read is known (log 9); no value
of SLOT_OUT and neither RXID nor RXNUM is the host's to read, and the values of SLOT_OUT are gone for good (log 10). -/
def Obligations.RaisingAnErrorKeepsAndSpoils : Prop :=
  ∀ (e : Err) (s : State), ∃ t, raise e s = .next t ∧ t = raised e s ∧ t.err = e ∧ t.result = .none ∧ t.act = .idle ∧
    t.rxs = (if ∃ c, s.act = .frameDec c then .fail else s.rxs) ∧
    (s.act.inCall = true → t.ses = .failed) ∧ (s.act.inCall = false → t.ses = s.ses) ∧
    (s.act.inCall = true ↔ s.act ∈ [Activity.fieldEnc true, .fieldDec true, .unescape true .b, .unescape true .t,
      .frameDec true, .callRound, .callEncode, .callNextId, .callFrame, .callWrite, .callStatus]) ∧
    (∃ p, Memory.readBytes t.pbuf 0 t.plen = some p ∧ p.length ≤ 1024) ∧
    (∀ n i, slotOutKind { t with outCnt := n } i = slotOutKind { s with outCnt := n } i) ∧ (∀ i, hostReadsSlotOut t i = none) ∧
    (∀ n i, hostReadsSlotOut { t with outOk := true, outCnt := n } i = none) ∧ hostReadsIdNum t = none ∧
    t = { s with
      err := e, result := .none, act := .idle, rxs := t.rxs, ses := t.ses, idOk := false, outOk := false
      slotOut := t.slotOut, pbuf := t.pbuf, plen := t.plen, fbuf := t.fbuf, flen := t.flen
      rxid := t.rxid, rxnum := t.rxnum, rxlen := t.rxlen, freeCtr := t.freeCtr }

/-- The illegal selectors and a request while an operation is in progress are refused with `IllegalOp`, and no state
other than ERR changes (60_exceptions R234; the request itself leaves the port). -/
def Obligations.IllegalRequestsChangeOnlyErr : Prop :=
  (∀ (i : Instr) (s : State), i ∈ [Instr.illegal0, .illegalC, .illegalD, .illegalE, .illegalF] →
    exec i s = .next { s with err := .illegalOp }) ∧
  (∀ (s : State) (r : Request) (rest : List PortEvent), s.act = .idle → s.port = ⟨false, .start r⟩ :: rest →
    (r.op = 0x0#4 ∨ 0xC#4 ≤ r.op ∨ (r.op = 0x8#4 ∧ 22 ≤ r.flag.toNat)) →
    step s = .next { s with err := .illegalOp, port := rest }) ∧
  (∀ (s : State) (r : Request) (rest : List PortEvent), s.act ≠ .idle → s.port = ⟨true, .start r⟩ :: rest →
    step s = .next { s with err := .illegalOp, port := rest })

/-- The reset values the spec gives (10_state R29, 70_reset_and_hazards R260), at State.reset and after a reset by the
host (`AtReset` is the table of R29; STATUS_MAP free again is log 6), the defaults of R8 for the parameters that are no
registers, of which TEXT_CODEC is the identity on bytes (log 35), and what a reset leaves alone: the streams and the
command table (R261), and those parameters (log 23, log 32). -/
def Obligations.ResetValues : Prop :=
  AtReset State.reset ∧
  (State.reset.cfg.intBits = 32 ∧ State.reset.cfg.realMantBits = 64 ∧ State.reset.cfg.realMaxScale = 15 ∧
    State.reset.cfg.nslot = 32 ∧ State.reset.cfg.payloadMax = 219) ∧
  (∀ b : List Byte, textToBytes State.reset.cfg.textCodec (b.map BitVec.toNat) = some b ∧
    bytesToText State.reset.cfg.textCodec b = some (b.map BitVec.toNat)) ∧
  ∀ (s : State) (e : Bool) (rest : List PortEvent), s.act = .idle → s.port = ⟨e, .reset⟩ :: rest →
    ∃ t, step s = .next t ∧ AtReset t ∧ t.rx = s.rx ∧ t.tx = s.tx ∧ t.table = s.table ∧ t.port = rest ∧
      t.cfg.intBits = s.cfg.intBits ∧ t.cfg.realMantBits = s.cfg.realMantBits ∧
      t.cfg.realMaxScale = s.cfg.realMaxScale ∧ t.cfg.nslot = s.cfg.nslot ∧ t.cfg.payloadMax = s.cfg.payloadMax ∧
      t.cfg.textCodec = s.cfg.textCodec

/-- What the host may do and when (10_state R14, R24, R26, 70_reset_and_hazards R260, R262, R270): between operations a
write lands in its register and nowhere else, and the table is built once; while an operation runs every write and reset
is refused. A written kind drops the placeholder's value (log 33). The writes refused between operations, a slot or a
count outside the file, a map that R195 does not admit, codes that have no layout and a second table, are log 22. -/
def Obligations.HostWritesLandBetweenOperations : Prop :=
  ∀ (s : State) (e : Bool) (rest : List PortEvent),
    (s.act = .idle →
      (∀ i v, s.port = ⟨e, .writeSlotIn i v⟩ :: rest → i < s.cfg.nslot →
        step s = .next { s with port := rest, slotIn := s.slotIn.set i (some v) }) ∧
      (∀ n, s.port = ⟨e, .writeInCnt n⟩ :: rest → n ≤ s.cfg.nslot →
        step s = .next { s with port := rest, inCnt := n }) ∧
      (∀ i k, s.port = ⟨e, .writeSlotOutKind i k⟩ :: rest → i < s.cfg.nslot →
        step s = .next { s with port := rest, slotOut := s.slotOut.set i (some ⟨k, none⟩) }) ∧
      (∀ n, s.port = ⟨e, .writeOutCnt n⟩ :: rest → n ≤ s.cfg.nslot →
        step s = .next { s with port := rest, outCnt := n }) ∧
      (∀ m, s.port = ⟨e, .writeStatusMap m⟩ :: rest → m.admissible = true →
        step s = .next { s with port := rest, cfg := { s.cfg with statusMap := m } }) ∧
      (∀ c, s.port = ⟨e, .writeCoverage c⟩ :: rest →
        step s = .next { s with port := rest, cfg := { s.cfg with coverage := c } }) ∧
      (∀ p, s.port = ⟨e, .writeRetryPred p⟩ :: rest →
        step s = .next { s with port := rest, cfg := { s.cfg with retryPred := p } }) ∧
      (∀ l, s.port = ⟨e, .writeBusyLimit l⟩ :: rest →
        step s = .next { s with port := rest, cfg := { s.cfg with busyLimit := l } }) ∧
      (∀ l, s.port = ⟨e, .writeRetryLimit l⟩ :: rest →
        step s = .next { s with port := rest, cfg := { s.cfg with retryLimit := l } }) ∧
      (s.port = ⟨e, .writeLegacyCodes []⟩ :: rest →
        step s = .next { s with port := rest, cfg := { s.cfg with legacyCodes := [] } }) ∧
      (∀ t, s.port = ⟨e, .buildTable t⟩ :: rest → s.tableBuilt = false →
        step s = .next { s with port := rest, table := t, tableBuilt := true }) ∧
      (∀ a r, s.port = ⟨e, a⟩ :: rest →
        (r = .noSuchSlot ∧ ((∃ i v, a = .writeSlotIn i v ∧ s.cfg.nslot ≤ i) ∨
          (∃ i k, a = .writeSlotOutKind i k ∧ s.cfg.nslot ≤ i) ∨
          ∃ n, (a = .writeInCnt n ∨ a = .writeOutCnt n) ∧ s.cfg.nslot < n)) ∨
        (r = .inadmissibleStatusMap ∧ ∃ m, a = .writeStatusMap m ∧ m.admissible = false) ∨
        (r = .legacyCodesHaveNoLayout ∧ ∃ l, a = .writeLegacyCodes l ∧ l ≠ []) ∨
        (r = .tableIsReadOnly ∧ s.tableBuilt = true ∧ ∃ t, a = .buildTable t) →
        step s = .refused r)) ∧
    (s.act ≠ .idle → ∀ a, s.port = ⟨true, a⟩ :: rest → (∀ r, a ≠ .start r) →
      step s = .refused .hostWriteWhileBusy ∨ step s = .refused .resetWhileBusy)

/-! ### The whole machine -/

/-- The step of an instruction of the table writes none of SR, SRV, the host's slots and counts, the configuration, the
command table and the streams, and only that of `SES.NEXTID` writes MID (10_state R14, R24, R26). For an operation that
takes several steps this is its first one (log 1): the write of SR by `FRM.DEC` (R21) and those of MID and TX by
`SES.CALL` (R19, R201) are made by later steps, which `WritersAreNamed` states. -/
def Obligations.InstructionsLeaveTheSpecialRegisters : Prop :=
  ∀ (i : Instr) (s t : State), exec i s = .next t →
    t.sr = s.sr ∧ t.srv = s.srv ∧ t.slotIn = s.slotIn ∧ t.inCnt = s.inCnt ∧ t.outCnt = s.outCnt ∧ t.cfg = s.cfg ∧
      t.table = s.table ∧ t.tx = s.tx ∧ t.rx = s.rx ∧ t.port = s.port ∧ (i ≠ .sesNextId → t.mid = s.mid)

/-- Who writes what, over every step. SR and SRV are written only at DONE of `FRM.DEC` with EXPST = 1, all six bytes at
once, or by reset; MID only where `SES.CALL` takes its id, or by reset (10_state R19, R21). A step takes at most one
answer off the channel and never puts one back; it writes only where `SES.CALL` writes its frame, and then all of the
frame at the end; a running operation never changes the host's slots, counts, configuration or table (20_memory R46,
R49, 10_state R14, R24, 70_reset_and_hazards R270). -/
def Obligations.WritersAreNamed : Prop :=
  ∀ s t : State, step s = .next t →
    ((t.sr ≠ s.sr ∨ t.srv ≠ s.srv) →
      ((∃ c, s.act = .frameDec c) ∧ s.rxs = .done ∧ s.expst = true ∧ t.sr = s.rxSt ∧ t.srv = true) ∨
      (s.act = .idle ∧ ∃ e rest, s.port = ⟨e, .reset⟩ :: rest)) ∧
    (t.mid ≠ s.mid →
      (s.act = .callNextId ∧ t.mid = (if s.mid = 127#8 then 32#8 else s.mid + 1#8)) ∨
      (s.act = .idle ∧ ∃ e rest, s.port = ⟨e, .reset⟩ :: rest)) ∧
    (t.rx = s.rx ∨ ∃ a, s.rx = a :: t.rx) ∧
    (t.tx = s.tx ∨ ∃ f, s.act = .callWrite ∧ Memory.readBytes s.fbuf 0 s.flen = some f ∧ t.tx = s.tx ++ f) ∧
    (s.act ≠ .idle →
      t.slotIn = s.slotIn ∧ t.inCnt = s.inCnt ∧ t.outCnt = s.outCnt ∧ t.cfg = s.cfg ∧ t.table = s.table)

/-- The state after reset is sound. -/
def Obligations.ResetIsSound : Prop := SoundState State.reset

/-- Every step keeps the invariant: the bounds of 10_state R14 to R19 and R27, the canonical form of both buffers, MID in
32..127, PAYLOAD_MAX no more than a length byte can hold, what each activity has stored, a payload that can always be
read. -/
def Obligations.StepKeepsSoundness : Prop :=
  ∀ s t : State, SoundState s → step s = .next t → SoundState t

/-- From every sound state a step does not fault: no rule reads a buffer byte that nothing has written (10_state R29,
70_reset_and_hazards R276). -/
def Obligations.SoundStatesNeverFault : Prop := ∀ s : State, SoundState s → SafeStep s
end

