-- ==== Sys2Proof/Laws/Memory.lean ====
section
/-! SUPPORT. The laws of the scratch buffers: read after write, other addresses unchanged, the canonical form kept. -/

namespace Sys2Proof.Machine

open Config

theorem Memory.read_insert_same (a : Nat) (b : Byte) (m : Memory) :
    Memory.read (Memory.insert a b m) a = some b := by
  induction m with
  | nil => simp [Memory.insert, Memory.read]
  | cons c m ih =>
    obtain ⟨k, v⟩ := c
    by_cases h1 : a < k
    · simp [Memory.insert, Memory.read, h1]
    · by_cases h2 : a = k
      · simp [Memory.insert, Memory.read, h2]
      · simp [Memory.insert, Memory.read, h1, h2, Ne.symm h2, ih]

theorem Memory.read_insert_other {a x : Nat} (h : x ≠ a) (b : Byte) (m : Memory) :
    Memory.read (Memory.insert a b m) x = Memory.read m x := by
  induction m with
  | nil => simp [Memory.insert, Memory.read, Ne.symm h]
  | cons c m ih =>
    obtain ⟨k, v⟩ := c
    by_cases h1 : a < k
    · simp [Memory.insert, Memory.read, h1, Ne.symm h]
    · by_cases h2 : a = k
      · subst h2; simp [Memory.insert, Memory.read, Ne.symm h]
      · simp [Memory.insert, Memory.read, h1, h2, ih]

theorem Memory.read_write_same {a : Nat} (h : a < bufSz) (m : Memory) (b : Byte) :
    Memory.read (Memory.write m a b) a = some b := by
  simp [Memory.write, h, Memory.read_insert_same]

theorem Memory.read_write_other {a x : Nat} (h : x ≠ a) (m : Memory) (b : Byte) :
    Memory.read (Memory.write m a b) x = Memory.read m x := by
  unfold Memory.write
  split
  · exact Memory.read_insert_other h b m
  · rfl

theorem Memory.mem_insert {a : Nat} {b : Byte} {m : Memory} {c : Host.Cell} (h : c ∈ Memory.insert a b m) :
    c = (a, b) ∨ c ∈ m := by
  induction m with
  | nil => simpa [Memory.insert] using h
  | cons d m ih =>
    obtain ⟨k, v⟩ := d
    by_cases h1 : a < k
    · simp only [Memory.insert, h1, if_true, List.mem_cons] at h ⊢
      exact h
    · by_cases h2 : a = k
      · simp only [Memory.insert, h2, lt_irrefl, if_false, if_true, List.mem_cons] at h ⊢
        tauto
      · simp only [Memory.insert, h1, h2, if_false, List.mem_cons] at h ⊢
        rcases h with h | h
        · exact .inr (.inl h)
        · rcases ih h with h | h
          · exact .inl h
          · exact .inr (.inr h)

theorem Memory.insert_wf {a : Nat} {b : Byte} {m : Memory} (ha : a < bufSz) (h : Memory.wf m) :
    Memory.wf (Memory.insert a b m) := by
  obtain ⟨hp, hb⟩ := h
  refine ⟨?_, fun c hc => ?_⟩
  · clear hb
    induction m with
    | nil => simp [Memory.insert]
    | cons d m ih =>
      obtain ⟨k, v⟩ := d
      rw [List.pairwise_cons] at hp
      obtain ⟨hk, hm⟩ := hp
      by_cases h1 : a < k
      · simp only [Memory.insert, h1, if_true]
        refine List.pairwise_cons.2 ⟨fun c hc => ?_, List.pairwise_cons.2 ⟨hk, hm⟩⟩
        rcases List.mem_cons.1 hc with hc | hc
        · subst hc; exact h1
        · exact lt_trans h1 (hk c hc)
      · by_cases h2 : a = k
        · subst h2
          simp only [Memory.insert, lt_irrefl, if_false, if_true]
          exact List.pairwise_cons.2 ⟨hk, hm⟩
        · simp only [Memory.insert, h1, h2, if_false]
          refine List.pairwise_cons.2 ⟨fun c hc => ?_, ih hm⟩
          rcases Memory.mem_insert hc with hc | hc
          · subst hc; exact lt_of_le_of_ne (not_lt.1 h1) (Ne.symm h2)
          · exact hk c hc
  · rcases Memory.mem_insert hc with hc | hc
    · subst hc; exact ha
    · exact hb c hc

theorem Memory.write_wf {a : Nat} {b : Byte} {m : Memory} (h : Memory.wf m) : Memory.wf (Memory.write m a b) := by
  unfold Memory.write
  split
  · exact Memory.insert_wf ‹_› h
  · exact h

theorem Memory.writeBytes_wf {m : Memory} (h : Memory.wf m) (a : Nat) (bs : List Byte) :
    Memory.wf (Memory.writeBytes m a bs) := by
  induction bs generalizing m a with
  | nil => exact h
  | cons b bs ih => exact ih (Memory.write_wf h) (a + 1)

theorem Memory.read_map_range (n a : Nat) (f : Nat → Byte) (h : a < n) :
    Memory.read ((List.range n).map fun x => (x, f x)) a = some (f a) := by
  have key : ∀ l : List Nat, a ∈ l → Memory.read (l.map fun x => (x, f x)) a = some (f a) := by
    intro l hl
    induction l with
    | nil => cases hl
    | cons x l ih =>
      by_cases hx : x = a
      · simp [Memory.read, hx]
      · simpa [Memory.read, hx] using ih ((List.mem_cons.1 hl).resolve_left (Ne.symm hx))
  exact key _ (List.mem_range.2 h)

theorem Memory.freeBuffer_wf (k : Nat) : Memory.wf (freeBuffer k) := by
  unfold freeBuffer
  refine ⟨List.pairwise_map.2 (List.pairwise_lt_range (n := bufSz)), fun c hc => ?_⟩
  obtain ⟨a, ha, rfl⟩ := List.mem_map.1 hc
  exact List.mem_range.1 ha

theorem Memory.read_freeBuffer (k : Nat) {a : Nat} (h : a < bufSz) :
    Memory.read (freeBuffer k) a = some (Config.freeByte k a) := by
  unfold freeBuffer
  exact Memory.read_map_range bufSz a _ h

theorem Memory.freeBuffer_covers (k : Nat) : Memory.covers (freeBuffer k) bufSz := fun _ h => by
  rw [Memory.read_freeBuffer k h]; rfl

theorem Memory.nil_wf : Memory.wf [] := ⟨List.Pairwise.nil, fun _ h => nomatch h⟩

/-- A run of bytes written at `a` leaves every address outside the run as it was. -/
theorem Memory.read_writeBytes_other (m : Memory) (a : Nat) (bs : List Byte) {x : Nat}
    (h : x < a ∨ a + bs.length ≤ x) : Memory.read (Memory.writeBytes m a bs) x = Memory.read m x := by
  induction bs generalizing m a with
  | nil => rfl
  | cons b bs ih =>
    rw [List.length_cons] at h
    rw [Memory.writeBytes, ih (Memory.write m a b) (a + 1) (by omega), Memory.read_write_other (by omega)]

/-- Each byte of a run written inside the buffer reads back. -/
theorem Memory.read_writeBytes_same (m : Memory) (a : Nat) (bs : List Byte) (h : a + bs.length ≤ bufSz) {j : Nat}
    (hj : j < bs.length) : Memory.read (Memory.writeBytes m a bs) (a + j) = bs[j]? := by
  induction bs generalizing m a j with
  | nil => simp at hj
  | cons b bs ih =>
    simp only [List.length_cons] at h hj
    cases j with
    | zero =>
      rw [Memory.writeBytes, Memory.read_writeBytes_other _ _ _ (by omega)]
      simpa using Memory.read_write_same (by omega) m b
    | succ j =>
      have := ih (Memory.write m a b) (a + 1) (by omega) (j := j) (by omega)
      rw [Memory.writeBytes, show a + (j + 1) = a + 1 + j by omega, this]
      simp

theorem Memory.readBytes_length {m : Memory} {a n : Nat} {bs : List Byte} (h : Memory.readBytes m a n = some bs) :
    bs.length = n := by
  induction n generalizing a bs with
  | zero => simp only [Memory.readBytes, Option.some.injEq] at h; subst h; rfl
  | succ n ih =>
    simp only [Memory.readBytes] at h
    split at h
    · rename_i b bs' hb hbs
      simp only [Option.some.injEq] at h
      subst h
      simp [ih hbs]
    · cases h

/-- Reading a run looks at the addresses of the run only. -/
theorem Memory.readBytes_congr {m m' : Memory} {a n : Nat}
    (h : ∀ x, a ≤ x → x < a + n → Memory.read m' x = Memory.read m x) :
    Memory.readBytes m' a n = Memory.readBytes m a n := by
  induction n generalizing a with
  | zero => rfl
  | succ n ih =>
    simp only [Memory.readBytes]
    rw [h a (le_refl a) (by omega), ih fun x h1 h2 => h x (by omega) (by omega)]

/-- A run written inside the buffer reads back. -/
theorem Memory.readBytes_writeBytes (m : Memory) (a : Nat) (bs : List Byte) (h : a + bs.length ≤ bufSz) :
    Memory.readBytes (Memory.writeBytes m a bs) a bs.length = some bs := by
  induction bs generalizing m a with
  | nil => rfl
  | cons b bs ih =>
    simp only [List.length_cons] at h ⊢
    simp only [Memory.readBytes, Memory.writeBytes]
    rw [ih (Memory.write m a b) (a + 1) (by omega), Memory.read_writeBytes_other _ _ _ (by omega),
      Memory.read_write_same (by omega)]

theorem Memory.readBytes_isSome {m : Memory} {a n : Nat} (h : ∀ x, a ≤ x → x < a + n → (Memory.read m x).isSome) :
    (Memory.readBytes m a n).isSome := by
  induction n generalizing a with
  | zero => rfl
  | succ n ih =>
    obtain ⟨b, hb⟩ := Option.isSome_iff_exists.1 (h a (le_refl a) (by omega))
    obtain ⟨bs, hbs⟩ := Option.isSome_iff_exists.1 (ih (a := a + 1) fun x h1 h2 => h x (by omega) (by omega))
    simp [Memory.readBytes, hb, hbs]

/-- A covered run reads. -/
theorem Memory.covers_readBytes {m : Memory} {n k : Nat} (h : Memory.covers m n) (hk : k ≤ n) :
    ∃ bs, Memory.readBytes m 0 k = some bs :=
  Option.isSome_iff_exists.1 (Memory.readBytes_isSome fun x _ hx => h x (by omega))

/-- Writing the next byte of a covered run extends it. -/
theorem Memory.covers_write_next {m : Memory} {n : Nat} (h : Memory.covers m n) (hn : n < bufSz) (b : Byte) :
    Memory.covers (Memory.write m n b) (n + 1) := by
  intro x hx
  by_cases hxn : x = n
  · subst hxn; simp [Memory.read_write_same hn]
  · rw [Memory.read_write_other hxn]; exact h x (by omega)

theorem Memory.covers_write {m : Memory} {n : Nat} (h : Memory.covers m n) (a : Nat) (b : Byte) :
    Memory.covers (Memory.write m a b) n := by
  intro x hx
  by_cases hxa : x = a
  · subst hxa
    by_cases hb : x < bufSz
    · simp [Memory.read_write_same hb]
    · simpa [Memory.write, hb] using h x hx
  · rw [Memory.read_write_other hxa]; exact h x hx

theorem Memory.covers_mono {m : Memory} {n k : Nat} (h : Memory.covers m n) (hk : k ≤ n) : Memory.covers m k :=
  fun x hx => h x (by omega)

/-- A run written anywhere keeps what was covered. -/
theorem Memory.covers_writeBytes_of_covers {m : Memory} {n : Nat} (h : Memory.covers m n) (a : Nat) (bs : List Byte) :
    Memory.covers (Memory.writeBytes m a bs) n := by
  induction bs generalizing m a with
  | nil => exact h
  | cons b bs ih => exact ih (Memory.covers_write h a b) (a + 1)

/-- Writing a run at the end of a covered run extends it. -/
theorem Memory.covers_writeBytes {m : Memory} {n : Nat} (h : Memory.covers m n) (bs : List Byte)
    (hn : n + bs.length ≤ bufSz) : Memory.covers (Memory.writeBytes m n bs) (n + bs.length) := by
  induction bs generalizing m n with
  | nil => simpa [Memory.writeBytes] using h
  | cons b bs ih =>
    simp only [List.length_cons] at hn ⊢
    have := ih (m := Memory.write m n b) (n := n + 1) (Memory.covers_write_next h (by omega) b) (by omega)
    rw [show n + (bs.length + 1) = n + 1 + bs.length by omega]
    exact this

end Sys2Proof.Machine
end

