-- ==== Sys2Proof/Laws/State.lean ====
section
/-! SUPPORT. One lemma per field for each named update of the state, so that no later proof unfolds one. -/

namespace Sys2Proof.Machine

@[simp] theorem startOp_slotIn (s : State) : (startOp s).slotIn = s.slotIn := rfl
@[simp] theorem startOp_inCnt (s : State) : (startOp s).inCnt = s.inCnt := rfl
@[simp] theorem startOp_slotOut (s : State) : (startOp s).slotOut = s.slotOut := rfl
@[simp] theorem startOp_outCnt (s : State) : (startOp s).outCnt = s.outCnt := rfl
@[simp] theorem startOp_rxs (s : State) : (startOp s).rxs = s.rxs := rfl
@[simp] theorem startOp_rxcnt (s : State) : (startOp s).rxcnt = s.rxcnt := rfl
@[simp] theorem startOp_busycnt (s : State) : (startOp s).busycnt = s.busycnt := rfl
@[simp] theorem startOp_tc (s : State) : (startOp s).tc = s.tc := rfl
@[simp] theorem startOp_pc (s : State) : (startOp s).pc = s.pc := rfl
@[simp] theorem startOp_sc (s : State) : (startOp s).sc = s.sc := rfl
@[simp] theorem startOp_ses (s : State) : (startOp s).ses = s.ses := rfl
@[simp] theorem startOp_retrycnt (s : State) : (startOp s).retrycnt = s.retrycnt := rfl
@[simp] theorem startOp_mid (s : State) : (startOp s).mid = s.mid := rfl
@[simp] theorem startOp_expst (s : State) : (startOp s).expst = s.expst := rfl
@[simp] theorem startOp_sr (s : State) : (startOp s).sr = s.sr := rfl
@[simp] theorem startOp_srv (s : State) : (startOp s).srv = s.srv := rfl
@[simp] theorem startOp_rxid (s : State) : (startOp s).rxid = s.rxid := rfl
@[simp] theorem startOp_rxnum (s : State) : (startOp s).rxnum = s.rxnum := rfl
@[simp] theorem startOp_rxlen (s : State) : (startOp s).rxlen = s.rxlen := rfl
@[simp] theorem startOp_err (s : State) : (startOp s).err = .none := rfl
@[simp] theorem startOp_cfg (s : State) : (startOp s).cfg = s.cfg := rfl
@[simp] theorem startOp_table (s : State) : (startOp s).table = s.table := rfl
@[simp] theorem startOp_tableBuilt (s : State) : (startOp s).tableBuilt = s.tableBuilt := rfl
@[simp] theorem startOp_pbuf (s : State) : (startOp s).pbuf = s.pbuf := rfl
@[simp] theorem startOp_plen (s : State) : (startOp s).plen = s.plen := rfl
@[simp] theorem startOp_fbuf (s : State) : (startOp s).fbuf = s.fbuf := rfl
@[simp] theorem startOp_flen (s : State) : (startOp s).flen = s.flen := rfl
@[simp] theorem startOp_rxSt (s : State) : (startOp s).rxSt = s.rxSt := rfl
@[simp] theorem startOp_rxBcc (s : State) : (startOp s).rxBcc = s.rxBcc := rfl
@[simp] theorem startOp_rxUsed (s : State) : (startOp s).rxUsed = s.rxUsed := rfl
@[simp] theorem startOp_tmpl (s : State) : (startOp s).tmpl = s.tmpl := rfl
@[simp] theorem startOp_desc (s : State) : (startOp s).desc = s.desc := rfl
@[simp] theorem startOp_callId (s : State) : (startOp s).callId = s.callId := rfl
@[simp] theorem startOp_fldRaw (s : State) : (startOp s).fldRaw = s.fldRaw := rfl
@[simp] theorem startOp_fldJ (s : State) : (startOp s).fldJ = s.fldJ := rfl
@[simp] theorem startOp_fldU (s : State) : (startOp s).fldU = s.fldU := rfl
@[simp] theorem startOp_opnd (s : State) : (startOp s).opnd = s.opnd := rfl
@[simp] theorem startOp_result (s : State) : (startOp s).result = .none := rfl
@[simp] theorem startOp_act (s : State) : (startOp s).act = s.act := rfl
@[simp] theorem startOp_idOk (s : State) : (startOp s).idOk = s.idOk := rfl
@[simp] theorem startOp_outOk (s : State) : (startOp s).outOk = s.outOk := rfl
@[simp] theorem startOp_freeCtr (s : State) : (startOp s).freeCtr = s.freeCtr := rfl
@[simp] theorem startOp_rx (s : State) : (startOp s).rx = s.rx := rfl
@[simp] theorem startOp_tx (s : State) : (startOp s).tx = s.tx := rfl
@[simp] theorem startOp_port (s : State) : (startOp s).port = s.port := rfl

@[simp] theorem deliver_slotIn (r : Result) (s : State) : (deliver r s).slotIn = s.slotIn := rfl
@[simp] theorem deliver_inCnt (r : Result) (s : State) : (deliver r s).inCnt = s.inCnt := rfl
@[simp] theorem deliver_slotOut (r : Result) (s : State) : (deliver r s).slotOut = s.slotOut := rfl
@[simp] theorem deliver_outCnt (r : Result) (s : State) : (deliver r s).outCnt = s.outCnt := rfl
@[simp] theorem deliver_rxs (r : Result) (s : State) : (deliver r s).rxs = s.rxs := rfl
@[simp] theorem deliver_rxcnt (r : Result) (s : State) : (deliver r s).rxcnt = s.rxcnt := rfl
@[simp] theorem deliver_busycnt (r : Result) (s : State) : (deliver r s).busycnt = s.busycnt := rfl
@[simp] theorem deliver_tc (r : Result) (s : State) : (deliver r s).tc = s.tc := rfl
@[simp] theorem deliver_pc (r : Result) (s : State) : (deliver r s).pc = s.pc := rfl
@[simp] theorem deliver_sc (r : Result) (s : State) : (deliver r s).sc = s.sc := rfl
@[simp] theorem deliver_ses (r : Result) (s : State) : (deliver r s).ses = s.ses := rfl
@[simp] theorem deliver_retrycnt (r : Result) (s : State) : (deliver r s).retrycnt = s.retrycnt := rfl
@[simp] theorem deliver_mid (r : Result) (s : State) : (deliver r s).mid = s.mid := rfl
@[simp] theorem deliver_expst (r : Result) (s : State) : (deliver r s).expst = s.expst := rfl
@[simp] theorem deliver_sr (r : Result) (s : State) : (deliver r s).sr = s.sr := rfl
@[simp] theorem deliver_srv (r : Result) (s : State) : (deliver r s).srv = s.srv := rfl
@[simp] theorem deliver_rxid (r : Result) (s : State) : (deliver r s).rxid = s.rxid := rfl
@[simp] theorem deliver_rxnum (r : Result) (s : State) : (deliver r s).rxnum = s.rxnum := rfl
@[simp] theorem deliver_rxlen (r : Result) (s : State) : (deliver r s).rxlen = s.rxlen := rfl
@[simp] theorem deliver_err (r : Result) (s : State) : (deliver r s).err = s.err := rfl
@[simp] theorem deliver_cfg (r : Result) (s : State) : (deliver r s).cfg = s.cfg := rfl
@[simp] theorem deliver_table (r : Result) (s : State) : (deliver r s).table = s.table := rfl
@[simp] theorem deliver_tableBuilt (r : Result) (s : State) : (deliver r s).tableBuilt = s.tableBuilt := rfl
@[simp] theorem deliver_pbuf (r : Result) (s : State) : (deliver r s).pbuf = s.pbuf := rfl
@[simp] theorem deliver_plen (r : Result) (s : State) : (deliver r s).plen = s.plen := rfl
@[simp] theorem deliver_fbuf (r : Result) (s : State) : (deliver r s).fbuf = s.fbuf := rfl
@[simp] theorem deliver_flen (r : Result) (s : State) : (deliver r s).flen = s.flen := rfl
@[simp] theorem deliver_rxSt (r : Result) (s : State) : (deliver r s).rxSt = s.rxSt := rfl
@[simp] theorem deliver_rxBcc (r : Result) (s : State) : (deliver r s).rxBcc = s.rxBcc := rfl
@[simp] theorem deliver_rxUsed (r : Result) (s : State) : (deliver r s).rxUsed = s.rxUsed := rfl
@[simp] theorem deliver_tmpl (r : Result) (s : State) : (deliver r s).tmpl = s.tmpl := rfl
@[simp] theorem deliver_desc (r : Result) (s : State) : (deliver r s).desc = s.desc := rfl
@[simp] theorem deliver_callId (r : Result) (s : State) : (deliver r s).callId = s.callId := rfl
@[simp] theorem deliver_fldRaw (r : Result) (s : State) : (deliver r s).fldRaw = s.fldRaw := rfl
@[simp] theorem deliver_fldJ (r : Result) (s : State) : (deliver r s).fldJ = s.fldJ := rfl
@[simp] theorem deliver_fldU (r : Result) (s : State) : (deliver r s).fldU = s.fldU := rfl
@[simp] theorem deliver_opnd (r : Result) (s : State) : (deliver r s).opnd = s.opnd := rfl
@[simp] theorem deliver_result (r : Result) (s : State) : (deliver r s).result = r := rfl
@[simp] theorem deliver_act (r : Result) (s : State) : (deliver r s).act = .idle := rfl
@[simp] theorem deliver_idOk (r : Result) (s : State) : (deliver r s).idOk = s.idOk := rfl
@[simp] theorem deliver_outOk (r : Result) (s : State) : (deliver r s).outOk = s.outOk := rfl
@[simp] theorem deliver_freeCtr (r : Result) (s : State) : (deliver r s).freeCtr = s.freeCtr := rfl
@[simp] theorem deliver_rx (r : Result) (s : State) : (deliver r s).rx = s.rx := rfl
@[simp] theorem deliver_tx (r : Result) (s : State) : (deliver r s).tx = s.tx := rfl
@[simp] theorem deliver_port (r : Result) (s : State) : (deliver r s).port = s.port := rfl

@[simp] theorem spoil_slotIn (s : State) : (spoil s).slotIn = s.slotIn := rfl
@[simp] theorem spoil_inCnt (s : State) : (spoil s).inCnt = s.inCnt := rfl
@[simp] theorem spoil_slotOut (s : State) : (spoil s).slotOut = s.slotOut.map (Option.map OutSlot.drop) := rfl
@[simp] theorem spoil_outCnt (s : State) : (spoil s).outCnt = s.outCnt := rfl
@[simp] theorem spoil_rxs (s : State) : (spoil s).rxs = s.rxs := rfl
@[simp] theorem spoil_rxcnt (s : State) : (spoil s).rxcnt = s.rxcnt := rfl
@[simp] theorem spoil_busycnt (s : State) : (spoil s).busycnt = s.busycnt := rfl
@[simp] theorem spoil_tc (s : State) : (spoil s).tc = s.tc := rfl
@[simp] theorem spoil_pc (s : State) : (spoil s).pc = s.pc := rfl
@[simp] theorem spoil_sc (s : State) : (spoil s).sc = s.sc := rfl
@[simp] theorem spoil_ses (s : State) : (spoil s).ses = s.ses := rfl
@[simp] theorem spoil_retrycnt (s : State) : (spoil s).retrycnt = s.retrycnt := rfl
@[simp] theorem spoil_mid (s : State) : (spoil s).mid = s.mid := rfl
@[simp] theorem spoil_expst (s : State) : (spoil s).expst = s.expst := rfl
@[simp] theorem spoil_sr (s : State) : (spoil s).sr = s.sr := rfl
@[simp] theorem spoil_srv (s : State) : (spoil s).srv = s.srv := rfl
@[simp] theorem spoil_rxid (s : State) : (spoil s).rxid = Config.freeByte (s.freeCtr + 2) 0 := rfl
@[simp] theorem spoil_rxnum (s : State) : (spoil s).rxnum = Config.freeByte (s.freeCtr + 2) 1 := rfl
@[simp] theorem spoil_rxlen (s : State) : (spoil s).rxlen = Config.freeByte (s.freeCtr + 2) 2 := rfl
@[simp] theorem spoil_err (s : State) : (spoil s).err = s.err := rfl
@[simp] theorem spoil_cfg (s : State) : (spoil s).cfg = s.cfg := rfl
@[simp] theorem spoil_table (s : State) : (spoil s).table = s.table := rfl
@[simp] theorem spoil_tableBuilt (s : State) : (spoil s).tableBuilt = s.tableBuilt := rfl
@[simp] theorem spoil_pbuf (s : State) : (spoil s).pbuf = freeBuffer s.freeCtr := rfl
@[simp] theorem spoil_plen (s : State) : (spoil s).plen = (Config.freeLength s.freeCtr).val := rfl
@[simp] theorem spoil_fbuf (s : State) : (spoil s).fbuf = freeBuffer (s.freeCtr + 1) := rfl
@[simp] theorem spoil_flen (s : State) : (spoil s).flen = (Config.freeLength (s.freeCtr + 1)).val := rfl
@[simp] theorem spoil_rxSt (s : State) : (spoil s).rxSt = s.rxSt := rfl
@[simp] theorem spoil_rxBcc (s : State) : (spoil s).rxBcc = s.rxBcc := rfl
@[simp] theorem spoil_rxUsed (s : State) : (spoil s).rxUsed = s.rxUsed := rfl
@[simp] theorem spoil_tmpl (s : State) : (spoil s).tmpl = s.tmpl := rfl
@[simp] theorem spoil_desc (s : State) : (spoil s).desc = s.desc := rfl
@[simp] theorem spoil_callId (s : State) : (spoil s).callId = s.callId := rfl
@[simp] theorem spoil_fldRaw (s : State) : (spoil s).fldRaw = s.fldRaw := rfl
@[simp] theorem spoil_fldJ (s : State) : (spoil s).fldJ = s.fldJ := rfl
@[simp] theorem spoil_fldU (s : State) : (spoil s).fldU = s.fldU := rfl
@[simp] theorem spoil_opnd (s : State) : (spoil s).opnd = s.opnd := rfl
@[simp] theorem spoil_result (s : State) : (spoil s).result = s.result := rfl
@[simp] theorem spoil_act (s : State) : (spoil s).act = s.act := rfl
@[simp] theorem spoil_idOk (s : State) : (spoil s).idOk = false := rfl
@[simp] theorem spoil_outOk (s : State) : (spoil s).outOk = false := rfl
@[simp] theorem spoil_freeCtr (s : State) : (spoil s).freeCtr = s.freeCtr + 3 := rfl
@[simp] theorem spoil_rx (s : State) : (spoil s).rx = s.rx := rfl
@[simp] theorem spoil_tx (s : State) : (spoil s).tx = s.tx := rfl
@[simp] theorem spoil_port (s : State) : (spoil s).port = s.port := rfl

@[simp] theorem raised_slotIn (e : Err) (s : State) : (raised e s).slotIn = s.slotIn := rfl
@[simp] theorem raised_inCnt (e : Err) (s : State) : (raised e s).inCnt = s.inCnt := rfl
@[simp] theorem raised_slotOut (e : Err) (s : State) :
    (raised e s).slotOut = s.slotOut.map (Option.map OutSlot.drop) := rfl
@[simp] theorem raised_outCnt (e : Err) (s : State) : (raised e s).outCnt = s.outCnt := rfl
@[simp] theorem raised_rxs (e : Err) (s : State) : (raised e s).rxs = if s.act.isFrameDec then .fail else s.rxs := rfl
@[simp] theorem raised_rxcnt (e : Err) (s : State) : (raised e s).rxcnt = s.rxcnt := rfl
@[simp] theorem raised_busycnt (e : Err) (s : State) : (raised e s).busycnt = s.busycnt := rfl
@[simp] theorem raised_tc (e : Err) (s : State) : (raised e s).tc = s.tc := rfl
@[simp] theorem raised_pc (e : Err) (s : State) : (raised e s).pc = s.pc := rfl
@[simp] theorem raised_sc (e : Err) (s : State) : (raised e s).sc = s.sc := rfl
@[simp] theorem raised_ses (e : Err) (s : State) : (raised e s).ses = if s.act.inCall then .failed else s.ses := rfl
@[simp] theorem raised_retrycnt (e : Err) (s : State) : (raised e s).retrycnt = s.retrycnt := rfl
@[simp] theorem raised_mid (e : Err) (s : State) : (raised e s).mid = s.mid := rfl
@[simp] theorem raised_expst (e : Err) (s : State) : (raised e s).expst = s.expst := rfl
@[simp] theorem raised_sr (e : Err) (s : State) : (raised e s).sr = s.sr := rfl
@[simp] theorem raised_srv (e : Err) (s : State) : (raised e s).srv = s.srv := rfl
@[simp] theorem raised_rxid (e : Err) (s : State) : (raised e s).rxid = (spoil s).rxid := rfl
@[simp] theorem raised_rxnum (e : Err) (s : State) : (raised e s).rxnum = (spoil s).rxnum := rfl
@[simp] theorem raised_rxlen (e : Err) (s : State) : (raised e s).rxlen = (spoil s).rxlen := rfl
@[simp] theorem raised_err (e : Err) (s : State) : (raised e s).err = e := rfl
@[simp] theorem raised_cfg (e : Err) (s : State) : (raised e s).cfg = s.cfg := rfl
@[simp] theorem raised_table (e : Err) (s : State) : (raised e s).table = s.table := rfl
@[simp] theorem raised_tableBuilt (e : Err) (s : State) : (raised e s).tableBuilt = s.tableBuilt := rfl
@[simp] theorem raised_pbuf (e : Err) (s : State) : (raised e s).pbuf = (spoil s).pbuf := rfl
@[simp] theorem raised_plen (e : Err) (s : State) : (raised e s).plen = (spoil s).plen := rfl
@[simp] theorem raised_fbuf (e : Err) (s : State) : (raised e s).fbuf = (spoil s).fbuf := rfl
@[simp] theorem raised_flen (e : Err) (s : State) : (raised e s).flen = (spoil s).flen := rfl
@[simp] theorem raised_rxSt (e : Err) (s : State) : (raised e s).rxSt = s.rxSt := rfl
@[simp] theorem raised_rxBcc (e : Err) (s : State) : (raised e s).rxBcc = s.rxBcc := rfl
@[simp] theorem raised_rxUsed (e : Err) (s : State) : (raised e s).rxUsed = s.rxUsed := rfl
@[simp] theorem raised_tmpl (e : Err) (s : State) : (raised e s).tmpl = s.tmpl := rfl
@[simp] theorem raised_desc (e : Err) (s : State) : (raised e s).desc = s.desc := rfl
@[simp] theorem raised_callId (e : Err) (s : State) : (raised e s).callId = s.callId := rfl
@[simp] theorem raised_fldRaw (e : Err) (s : State) : (raised e s).fldRaw = s.fldRaw := rfl
@[simp] theorem raised_fldJ (e : Err) (s : State) : (raised e s).fldJ = s.fldJ := rfl
@[simp] theorem raised_fldU (e : Err) (s : State) : (raised e s).fldU = s.fldU := rfl
@[simp] theorem raised_opnd (e : Err) (s : State) : (raised e s).opnd = s.opnd := rfl
@[simp] theorem raised_result (e : Err) (s : State) : (raised e s).result = .none := rfl
@[simp] theorem raised_act (e : Err) (s : State) : (raised e s).act = .idle := rfl
@[simp] theorem raised_idOk (e : Err) (s : State) : (raised e s).idOk = false := rfl
@[simp] theorem raised_outOk (e : Err) (s : State) : (raised e s).outOk = false := rfl
@[simp] theorem raised_freeCtr (e : Err) (s : State) : (raised e s).freeCtr = (spoil s).freeCtr := rfl
@[simp] theorem raised_rx (e : Err) (s : State) : (raised e s).rx = s.rx := rfl
@[simp] theorem raised_tx (e : Err) (s : State) : (raised e s).tx = s.tx := rfl
@[simp] theorem raised_port (e : Err) (s : State) : (raised e s).port = s.port := rfl

@[simp] theorem illegal_slotIn (s : State) : (illegal s).slotIn = s.slotIn := rfl
@[simp] theorem illegal_inCnt (s : State) : (illegal s).inCnt = s.inCnt := rfl
@[simp] theorem illegal_slotOut (s : State) : (illegal s).slotOut = s.slotOut := rfl
@[simp] theorem illegal_outCnt (s : State) : (illegal s).outCnt = s.outCnt := rfl
@[simp] theorem illegal_rxs (s : State) : (illegal s).rxs = s.rxs := rfl
@[simp] theorem illegal_rxcnt (s : State) : (illegal s).rxcnt = s.rxcnt := rfl
@[simp] theorem illegal_busycnt (s : State) : (illegal s).busycnt = s.busycnt := rfl
@[simp] theorem illegal_tc (s : State) : (illegal s).tc = s.tc := rfl
@[simp] theorem illegal_pc (s : State) : (illegal s).pc = s.pc := rfl
@[simp] theorem illegal_sc (s : State) : (illegal s).sc = s.sc := rfl
@[simp] theorem illegal_ses (s : State) : (illegal s).ses = s.ses := rfl
@[simp] theorem illegal_retrycnt (s : State) : (illegal s).retrycnt = s.retrycnt := rfl
@[simp] theorem illegal_mid (s : State) : (illegal s).mid = s.mid := rfl
@[simp] theorem illegal_expst (s : State) : (illegal s).expst = s.expst := rfl
@[simp] theorem illegal_sr (s : State) : (illegal s).sr = s.sr := rfl
@[simp] theorem illegal_srv (s : State) : (illegal s).srv = s.srv := rfl
@[simp] theorem illegal_rxid (s : State) : (illegal s).rxid = s.rxid := rfl
@[simp] theorem illegal_rxnum (s : State) : (illegal s).rxnum = s.rxnum := rfl
@[simp] theorem illegal_rxlen (s : State) : (illegal s).rxlen = s.rxlen := rfl
@[simp] theorem illegal_err (s : State) : (illegal s).err = .illegalOp := rfl
@[simp] theorem illegal_cfg (s : State) : (illegal s).cfg = s.cfg := rfl
@[simp] theorem illegal_table (s : State) : (illegal s).table = s.table := rfl
@[simp] theorem illegal_tableBuilt (s : State) : (illegal s).tableBuilt = s.tableBuilt := rfl
@[simp] theorem illegal_pbuf (s : State) : (illegal s).pbuf = s.pbuf := rfl
@[simp] theorem illegal_plen (s : State) : (illegal s).plen = s.plen := rfl
@[simp] theorem illegal_fbuf (s : State) : (illegal s).fbuf = s.fbuf := rfl
@[simp] theorem illegal_flen (s : State) : (illegal s).flen = s.flen := rfl
@[simp] theorem illegal_rxSt (s : State) : (illegal s).rxSt = s.rxSt := rfl
@[simp] theorem illegal_rxBcc (s : State) : (illegal s).rxBcc = s.rxBcc := rfl
@[simp] theorem illegal_rxUsed (s : State) : (illegal s).rxUsed = s.rxUsed := rfl
@[simp] theorem illegal_tmpl (s : State) : (illegal s).tmpl = s.tmpl := rfl
@[simp] theorem illegal_desc (s : State) : (illegal s).desc = s.desc := rfl
@[simp] theorem illegal_callId (s : State) : (illegal s).callId = s.callId := rfl
@[simp] theorem illegal_fldRaw (s : State) : (illegal s).fldRaw = s.fldRaw := rfl
@[simp] theorem illegal_fldJ (s : State) : (illegal s).fldJ = s.fldJ := rfl
@[simp] theorem illegal_fldU (s : State) : (illegal s).fldU = s.fldU := rfl
@[simp] theorem illegal_opnd (s : State) : (illegal s).opnd = s.opnd := rfl
@[simp] theorem illegal_result (s : State) : (illegal s).result = s.result := rfl
@[simp] theorem illegal_act (s : State) : (illegal s).act = s.act := rfl
@[simp] theorem illegal_idOk (s : State) : (illegal s).idOk = s.idOk := rfl
@[simp] theorem illegal_outOk (s : State) : (illegal s).outOk = s.outOk := rfl
@[simp] theorem illegal_freeCtr (s : State) : (illegal s).freeCtr = s.freeCtr := rfl
@[simp] theorem illegal_rx (s : State) : (illegal s).rx = s.rx := rfl
@[simp] theorem illegal_tx (s : State) : (illegal s).tx = s.tx := rfl
@[simp] theorem illegal_port (s : State) : (illegal s).port = s.port := rfl

@[simp] theorem chanWrite_slotIn (f : List Byte) (s : State) : (chanWrite f s).slotIn = s.slotIn := rfl
@[simp] theorem chanWrite_inCnt (f : List Byte) (s : State) : (chanWrite f s).inCnt = s.inCnt := rfl
@[simp] theorem chanWrite_slotOut (f : List Byte) (s : State) : (chanWrite f s).slotOut = s.slotOut := rfl
@[simp] theorem chanWrite_outCnt (f : List Byte) (s : State) : (chanWrite f s).outCnt = s.outCnt := rfl
@[simp] theorem chanWrite_rxs (f : List Byte) (s : State) : (chanWrite f s).rxs = s.rxs := rfl
@[simp] theorem chanWrite_rxcnt (f : List Byte) (s : State) : (chanWrite f s).rxcnt = s.rxcnt := rfl
@[simp] theorem chanWrite_busycnt (f : List Byte) (s : State) : (chanWrite f s).busycnt = s.busycnt := rfl
@[simp] theorem chanWrite_tc (f : List Byte) (s : State) : (chanWrite f s).tc = s.tc := rfl
@[simp] theorem chanWrite_pc (f : List Byte) (s : State) : (chanWrite f s).pc = s.pc := rfl
@[simp] theorem chanWrite_sc (f : List Byte) (s : State) : (chanWrite f s).sc = s.sc := rfl
@[simp] theorem chanWrite_ses (f : List Byte) (s : State) : (chanWrite f s).ses = s.ses := rfl
@[simp] theorem chanWrite_retrycnt (f : List Byte) (s : State) : (chanWrite f s).retrycnt = s.retrycnt := rfl
@[simp] theorem chanWrite_mid (f : List Byte) (s : State) : (chanWrite f s).mid = s.mid := rfl
@[simp] theorem chanWrite_expst (f : List Byte) (s : State) : (chanWrite f s).expst = s.expst := rfl
@[simp] theorem chanWrite_sr (f : List Byte) (s : State) : (chanWrite f s).sr = s.sr := rfl
@[simp] theorem chanWrite_srv (f : List Byte) (s : State) : (chanWrite f s).srv = s.srv := rfl
@[simp] theorem chanWrite_rxid (f : List Byte) (s : State) : (chanWrite f s).rxid = s.rxid := rfl
@[simp] theorem chanWrite_rxnum (f : List Byte) (s : State) : (chanWrite f s).rxnum = s.rxnum := rfl
@[simp] theorem chanWrite_rxlen (f : List Byte) (s : State) : (chanWrite f s).rxlen = s.rxlen := rfl
@[simp] theorem chanWrite_err (f : List Byte) (s : State) : (chanWrite f s).err = s.err := rfl
@[simp] theorem chanWrite_cfg (f : List Byte) (s : State) : (chanWrite f s).cfg = s.cfg := rfl
@[simp] theorem chanWrite_table (f : List Byte) (s : State) : (chanWrite f s).table = s.table := rfl
@[simp] theorem chanWrite_tableBuilt (f : List Byte) (s : State) : (chanWrite f s).tableBuilt = s.tableBuilt := rfl
@[simp] theorem chanWrite_pbuf (f : List Byte) (s : State) : (chanWrite f s).pbuf = s.pbuf := rfl
@[simp] theorem chanWrite_plen (f : List Byte) (s : State) : (chanWrite f s).plen = s.plen := rfl
@[simp] theorem chanWrite_fbuf (f : List Byte) (s : State) : (chanWrite f s).fbuf = s.fbuf := rfl
@[simp] theorem chanWrite_flen (f : List Byte) (s : State) : (chanWrite f s).flen = s.flen := rfl
@[simp] theorem chanWrite_rxSt (f : List Byte) (s : State) : (chanWrite f s).rxSt = s.rxSt := rfl
@[simp] theorem chanWrite_rxBcc (f : List Byte) (s : State) : (chanWrite f s).rxBcc = s.rxBcc := rfl
@[simp] theorem chanWrite_rxUsed (f : List Byte) (s : State) : (chanWrite f s).rxUsed = s.rxUsed := rfl
@[simp] theorem chanWrite_tmpl (f : List Byte) (s : State) : (chanWrite f s).tmpl = s.tmpl := rfl
@[simp] theorem chanWrite_desc (f : List Byte) (s : State) : (chanWrite f s).desc = s.desc := rfl
@[simp] theorem chanWrite_callId (f : List Byte) (s : State) : (chanWrite f s).callId = s.callId := rfl
@[simp] theorem chanWrite_fldRaw (f : List Byte) (s : State) : (chanWrite f s).fldRaw = s.fldRaw := rfl
@[simp] theorem chanWrite_fldJ (f : List Byte) (s : State) : (chanWrite f s).fldJ = s.fldJ := rfl
@[simp] theorem chanWrite_fldU (f : List Byte) (s : State) : (chanWrite f s).fldU = s.fldU := rfl
@[simp] theorem chanWrite_opnd (f : List Byte) (s : State) : (chanWrite f s).opnd = s.opnd := rfl
@[simp] theorem chanWrite_result (f : List Byte) (s : State) : (chanWrite f s).result = s.result := rfl
@[simp] theorem chanWrite_act (f : List Byte) (s : State) : (chanWrite f s).act = s.act := rfl
@[simp] theorem chanWrite_idOk (f : List Byte) (s : State) : (chanWrite f s).idOk = s.idOk := rfl
@[simp] theorem chanWrite_outOk (f : List Byte) (s : State) : (chanWrite f s).outOk = s.outOk := rfl
@[simp] theorem chanWrite_freeCtr (f : List Byte) (s : State) : (chanWrite f s).freeCtr = s.freeCtr := rfl
@[simp] theorem chanWrite_rx (f : List Byte) (s : State) : (chanWrite f s).rx = s.rx := rfl
@[simp] theorem chanWrite_tx (f : List Byte) (s : State) : (chanWrite f s).tx = s.tx ++ f := rfl
@[simp] theorem chanWrite_port (f : List Byte) (s : State) : (chanWrite f s).port = s.port := rfl

@[simp] theorem startFrameDec_slotIn (c e : Bool) (s : State) : (startFrameDec c e s).slotIn = s.slotIn := rfl
@[simp] theorem startFrameDec_inCnt (c e : Bool) (s : State) : (startFrameDec c e s).inCnt = s.inCnt := rfl
@[simp] theorem startFrameDec_slotOut (c e : Bool) (s : State) : (startFrameDec c e s).slotOut = s.slotOut := rfl
@[simp] theorem startFrameDec_outCnt (c e : Bool) (s : State) : (startFrameDec c e s).outCnt = s.outCnt := rfl
@[simp] theorem startFrameDec_rxs (c e : Bool) (s : State) : (startFrameDec c e s).rxs = .waitStart := rfl
@[simp] theorem startFrameDec_rxcnt (c e : Bool) (s : State) : (startFrameDec c e s).rxcnt = 1 := rfl
@[simp] theorem startFrameDec_busycnt (c e : Bool) (s : State) : (startFrameDec c e s).busycnt = 0 := rfl
@[simp] theorem startFrameDec_tc (c e : Bool) (s : State) : (startFrameDec c e s).tc = s.tc := rfl
@[simp] theorem startFrameDec_pc (c e : Bool) (s : State) : (startFrameDec c e s).pc = s.pc := rfl
@[simp] theorem startFrameDec_sc (c e : Bool) (s : State) : (startFrameDec c e s).sc = s.sc := rfl
@[simp] theorem startFrameDec_ses (c e : Bool) (s : State) : (startFrameDec c e s).ses = s.ses := rfl
@[simp] theorem startFrameDec_retrycnt (c e : Bool) (s : State) : (startFrameDec c e s).retrycnt = s.retrycnt := rfl
@[simp] theorem startFrameDec_mid (c e : Bool) (s : State) : (startFrameDec c e s).mid = s.mid := rfl
@[simp] theorem startFrameDec_expst (c e : Bool) (s : State) : (startFrameDec c e s).expst = e := rfl
@[simp] theorem startFrameDec_sr (c e : Bool) (s : State) : (startFrameDec c e s).sr = s.sr := rfl
@[simp] theorem startFrameDec_srv (c e : Bool) (s : State) : (startFrameDec c e s).srv = s.srv := rfl
@[simp] theorem startFrameDec_rxid (c e : Bool) (s : State) : (startFrameDec c e s).rxid = s.rxid := rfl
@[simp] theorem startFrameDec_rxnum (c e : Bool) (s : State) : (startFrameDec c e s).rxnum = s.rxnum := rfl
@[simp] theorem startFrameDec_rxlen (c e : Bool) (s : State) : (startFrameDec c e s).rxlen = s.rxlen := rfl
@[simp] theorem startFrameDec_err (c e : Bool) (s : State) : (startFrameDec c e s).err = s.err := rfl
@[simp] theorem startFrameDec_cfg (c e : Bool) (s : State) : (startFrameDec c e s).cfg = s.cfg := rfl
@[simp] theorem startFrameDec_table (c e : Bool) (s : State) : (startFrameDec c e s).table = s.table := rfl
@[simp] theorem startFrameDec_tableBuilt (c e : Bool) (s : State) :
    (startFrameDec c e s).tableBuilt = s.tableBuilt := rfl
@[simp] theorem startFrameDec_pbuf (c e : Bool) (s : State) : (startFrameDec c e s).pbuf = s.pbuf := rfl
@[simp] theorem startFrameDec_plen (c e : Bool) (s : State) : (startFrameDec c e s).plen = s.plen := rfl
@[simp] theorem startFrameDec_fbuf (c e : Bool) (s : State) : (startFrameDec c e s).fbuf = s.fbuf := rfl
@[simp] theorem startFrameDec_flen (c e : Bool) (s : State) : (startFrameDec c e s).flen = 0 := rfl
@[simp] theorem startFrameDec_rxSt (c e : Bool) (s : State) : (startFrameDec c e s).rxSt = s.rxSt := rfl
@[simp] theorem startFrameDec_rxBcc (c e : Bool) (s : State) : (startFrameDec c e s).rxBcc = s.rxBcc := rfl
@[simp] theorem startFrameDec_rxUsed (c e : Bool) (s : State) : (startFrameDec c e s).rxUsed = 0 := rfl
@[simp] theorem startFrameDec_tmpl (c e : Bool) (s : State) : (startFrameDec c e s).tmpl = s.tmpl := rfl
@[simp] theorem startFrameDec_desc (c e : Bool) (s : State) : (startFrameDec c e s).desc = s.desc := rfl
@[simp] theorem startFrameDec_callId (c e : Bool) (s : State) : (startFrameDec c e s).callId = s.callId := rfl
@[simp] theorem startFrameDec_fldRaw (c e : Bool) (s : State) : (startFrameDec c e s).fldRaw = s.fldRaw := rfl
@[simp] theorem startFrameDec_fldJ (c e : Bool) (s : State) : (startFrameDec c e s).fldJ = s.fldJ := rfl
@[simp] theorem startFrameDec_fldU (c e : Bool) (s : State) : (startFrameDec c e s).fldU = s.fldU := rfl
@[simp] theorem startFrameDec_opnd (c e : Bool) (s : State) : (startFrameDec c e s).opnd = s.opnd := rfl
@[simp] theorem startFrameDec_result (c e : Bool) (s : State) : (startFrameDec c e s).result = s.result := rfl
@[simp] theorem startFrameDec_act (c e : Bool) (s : State) : (startFrameDec c e s).act = .frameDec c := rfl
@[simp] theorem startFrameDec_idOk (c e : Bool) (s : State) : (startFrameDec c e s).idOk = false := rfl
@[simp] theorem startFrameDec_outOk (c e : Bool) (s : State) : (startFrameDec c e s).outOk = s.outOk := rfl
@[simp] theorem startFrameDec_freeCtr (c e : Bool) (s : State) : (startFrameDec c e s).freeCtr = s.freeCtr := rfl
@[simp] theorem startFrameDec_rx (c e : Bool) (s : State) : (startFrameDec c e s).rx = s.rx := rfl
@[simp] theorem startFrameDec_tx (c e : Bool) (s : State) : (startFrameDec c e s).tx = s.tx := rfl
@[simp] theorem startFrameDec_port (c e : Bool) (s : State) : (startFrameDec c e s).port = s.port := rfl

@[simp] theorem acceptFrame_slotIn (s : State) : (acceptFrame s).slotIn = s.slotIn := rfl
@[simp] theorem acceptFrame_inCnt (s : State) : (acceptFrame s).inCnt = s.inCnt := rfl
@[simp] theorem acceptFrame_slotOut (s : State) : (acceptFrame s).slotOut = s.slotOut := rfl
@[simp] theorem acceptFrame_outCnt (s : State) : (acceptFrame s).outCnt = s.outCnt := rfl
@[simp] theorem acceptFrame_rxs (s : State) : (acceptFrame s).rxs = s.rxs := rfl
@[simp] theorem acceptFrame_rxcnt (s : State) : (acceptFrame s).rxcnt = s.rxcnt := rfl
@[simp] theorem acceptFrame_busycnt (s : State) : (acceptFrame s).busycnt = s.busycnt := rfl
@[simp] theorem acceptFrame_tc (s : State) : (acceptFrame s).tc = s.tc := rfl
@[simp] theorem acceptFrame_pc (s : State) : (acceptFrame s).pc = s.pc := rfl
@[simp] theorem acceptFrame_sc (s : State) : (acceptFrame s).sc = s.sc := rfl
@[simp] theorem acceptFrame_ses (s : State) : (acceptFrame s).ses = s.ses := rfl
@[simp] theorem acceptFrame_retrycnt (s : State) : (acceptFrame s).retrycnt = s.retrycnt := rfl
@[simp] theorem acceptFrame_mid (s : State) : (acceptFrame s).mid = s.mid := rfl
@[simp] theorem acceptFrame_expst (s : State) : (acceptFrame s).expst = s.expst := rfl
@[simp] theorem acceptFrame_sr (s : State) : (acceptFrame s).sr = if s.expst then s.rxSt else s.sr := rfl
@[simp] theorem acceptFrame_srv (s : State) : (acceptFrame s).srv = (s.expst || s.srv) := rfl
@[simp] theorem acceptFrame_rxid (s : State) : (acceptFrame s).rxid = s.rxid := rfl
@[simp] theorem acceptFrame_rxnum (s : State) : (acceptFrame s).rxnum = s.rxnum := rfl
@[simp] theorem acceptFrame_rxlen (s : State) : (acceptFrame s).rxlen = s.rxlen := rfl
@[simp] theorem acceptFrame_err (s : State) : (acceptFrame s).err = s.err := rfl
@[simp] theorem acceptFrame_cfg (s : State) : (acceptFrame s).cfg = s.cfg := rfl
@[simp] theorem acceptFrame_table (s : State) : (acceptFrame s).table = s.table := rfl
@[simp] theorem acceptFrame_tableBuilt (s : State) : (acceptFrame s).tableBuilt = s.tableBuilt := rfl
@[simp] theorem acceptFrame_pbuf (s : State) : (acceptFrame s).pbuf = s.pbuf := rfl
@[simp] theorem acceptFrame_plen (s : State) : (acceptFrame s).plen = s.plen := rfl
@[simp] theorem acceptFrame_fbuf (s : State) : (acceptFrame s).fbuf = s.fbuf := rfl
@[simp] theorem acceptFrame_flen (s : State) : (acceptFrame s).flen = s.flen := rfl
@[simp] theorem acceptFrame_rxSt (s : State) : (acceptFrame s).rxSt = s.rxSt := rfl
@[simp] theorem acceptFrame_rxBcc (s : State) : (acceptFrame s).rxBcc = s.rxBcc := rfl
@[simp] theorem acceptFrame_rxUsed (s : State) : (acceptFrame s).rxUsed = s.rxUsed := rfl
@[simp] theorem acceptFrame_tmpl (s : State) : (acceptFrame s).tmpl = s.tmpl := rfl
@[simp] theorem acceptFrame_desc (s : State) : (acceptFrame s).desc = s.desc := rfl
@[simp] theorem acceptFrame_callId (s : State) : (acceptFrame s).callId = s.callId := rfl
@[simp] theorem acceptFrame_fldRaw (s : State) : (acceptFrame s).fldRaw = s.fldRaw := rfl
@[simp] theorem acceptFrame_fldJ (s : State) : (acceptFrame s).fldJ = s.fldJ := rfl
@[simp] theorem acceptFrame_fldU (s : State) : (acceptFrame s).fldU = s.fldU := rfl
@[simp] theorem acceptFrame_opnd (s : State) : (acceptFrame s).opnd = s.opnd := rfl
@[simp] theorem acceptFrame_result (s : State) : (acceptFrame s).result = s.result := rfl
@[simp] theorem acceptFrame_act (s : State) : (acceptFrame s).act = s.act := rfl
@[simp] theorem acceptFrame_idOk (s : State) : (acceptFrame s).idOk = true := rfl
@[simp] theorem acceptFrame_outOk (s : State) : (acceptFrame s).outOk = s.outOk := rfl
@[simp] theorem acceptFrame_freeCtr (s : State) : (acceptFrame s).freeCtr = s.freeCtr := rfl
@[simp] theorem acceptFrame_rx (s : State) : (acceptFrame s).rx = s.rx := rfl
@[simp] theorem acceptFrame_tx (s : State) : (acceptFrame s).tx = s.tx := rfl
@[simp] theorem acceptFrame_port (s : State) : (acceptFrame s).port = s.port := rfl

end Sys2Proof.Machine
end

