-- ==== Sys2Proof/Laws/Ops.lean ====
section
/-! SUPPORT. One lemma per shared operation that says once everything it can do when it answers a next state. -/

namespace Sys2Proof.Machine

theorem raise_next {e : Err} {s t : State} : raise e s = .next t ↔ t = raised e s := by
  simp [raise, eq_comm]

theorem withPbuf_next {n : Nat} {s t : State} {k : List Byte → Out} (h : withPbuf n s k = .next t) :
    ∃ p, Memory.readBytes s.pbuf 0 n = some p ∧ k p = .next t := by
  unfold withPbuf at h
  split at h
  · exact ⟨_, ‹_›, h⟩
  · cases h

theorem withFbuf_next {n : Nat} {s t : State} {k : List Byte → Out} (h : withFbuf n s k = .next t) :
    ∃ f, Memory.readBytes s.fbuf 0 n = some f ∧ k f = .next t := by
  unfold withFbuf at h
  split at h
  · exact ⟨_, ‹_›, h⟩
  · cases h

theorem withPbuf_eq {n : Nat} {s : State} {p : List Byte} (h : Memory.readBytes s.pbuf 0 n = some p)
    (k : List Byte → Out) : withPbuf n s k = k p := by
  simp [withPbuf, h]

theorem withFbuf_eq {n : Nat} {s : State} {f : List Byte} (h : Memory.readBytes s.fbuf 0 n = some f)
    (k : List Byte → Out) : withFbuf n s k = k f := by
  simp [withFbuf, h]

theorem withPayload_next {s t : State} {k : List Byte → Out} (h : withPayload s k = .next t) :
    ∃ p, Memory.readBytes s.pbuf 0 s.plen = some p ∧ k p = .next t :=
  withPbuf_next h

theorem withPayload_eq {s : State} {p : List Byte} (h : Memory.readBytes s.pbuf 0 s.plen = some p)
    (k : List Byte → Out) : withPayload s k = k p :=
  withPbuf_eq h k

/-- What an error leaves in PBUF and PLEN can be read, whatever it is. -/
theorem spoil_covers (s : State) : Memory.covers (spoil s).pbuf (spoil s).plen :=
  Memory.covers_mono (Memory.freeBuffer_covers _) (Nat.le_of_lt_succ (Fin.isLt _))

theorem spoil_plen_le (s : State) : (spoil s).plen ≤ Config.bufSz := Nat.le_of_lt_succ (Fin.isLt _)

theorem spoil_flen_le (s : State) : (spoil s).flen ≤ Config.bufSz := Nat.le_of_lt_succ (Fin.isLt _)

/-- An error keeps the kinds of the placeholders. -/
theorem slotOutKind_raised (e : Err) (s : State) (i : Nat) : slotOutKind (raised e s) i = slotOutKind s i := by
  simp only [slotOutKind, raised_outCnt, raised_slotOut, List.getElem?_map]
  split
  · rcases s.slotOut[i]? with _ | _ | o <;> rfl
  · rfl

/-- After an error the host reads no value of SLOT_OUT, and none comes back before a decode writes one: the values are
gone. -/
theorem raised_slotOut_val (e : Err) (s : State) (i : Nat) :
    (((raised e s).slotOut[i]?).join).bind OutSlot.val = none := by
  simp only [raised_slotOut, List.getElem?_map]
  rcases s.slotOut[i]? with _ | _ | o <;> rfl

/-- `emit` writes the bytes at PC and goes on, or raises with nothing written. -/
theorem emit_cases {bs : List Byte} {s t : State} (h : emit bs s = .next t) :
    (s.pc + bs.length ≤ Config.bufSz ∧
      t = { s with pbuf := Memory.writeBytes s.pbuf s.pc bs, pc := s.pc + bs.length, tc := s.tc + 1 }) ∨
    t = raised (.payloadTooLong (s.pc + bs.length)) s := by
  unfold emit at h
  split at h
  · exact .inr (raise_next.1 h)
  · exact .inl ⟨by omega, by simpa [eq_comm] using h⟩

/-- A typed token of `FE.RUN` raises with PC where it was, or emits the bytes of its slot. -/
theorem feTyped_cases {code : FieldCode} {f : SlotVal → Option (List Byte)} {s t : State}
    (h : feTyped code f s = .next t) :
    (∃ e, t = raised e s) ∨ (∃ e, t = raised e { s with sc := s.sc + 1 }) ∨
    (∃ v bs, slotInVal s s.sc = some v ∧ accepts code v.kind = true ∧ f v = some bs ∧
      s.pc + bs.length ≤ Config.bufSz ∧
      t = { s with
        pbuf := Memory.writeBytes s.pbuf s.pc bs, pc := s.pc + bs.length, tc := s.tc + 1, sc := s.sc + 1 }) := by
  unfold feTyped at h
  split at h
  · exact .inl ⟨_, raise_next.1 h⟩
  · split at h
    · split at h
      · rcases emit_cases h with ⟨h1, h2⟩ | h2
        · exact .inr (.inr ⟨_, _, ‹_›, ‹_›, ‹_›, h1, h2⟩)
        · exact .inr (.inl ⟨_, h2⟩)
      · exact .inr (.inl ⟨_, raise_next.1 h⟩)
    · exact .inl ⟨_, raise_next.1 h⟩

/-- A typed token of `FD.RUN` raises, or has its width and hands `raw` to its parser with PC after the field. -/
theorem fdTyped_cases {code : FieldCode} {f : List Byte → Kind → State → Out} {s t : State}
    (h : fdTyped code f s = .next t) :
    (∃ e, t = raised e s) ∨
    (∃ p w, Memory.readBytes s.pbuf 0 s.plen = some p ∧
      fieldWidth code (s.tmpl.drop (s.tc + 1)) p s.pc = .ok w ∧
      ((∃ e, t = raised e { s with pc := s.pc + w }) ∨
        ∃ k, slotOutKind s s.sc = some k ∧ accepts code k = true ∧
          f ((p.drop s.pc).take w) k { s with pc := s.pc + w } = .next t)) := by
  obtain ⟨p, hp, h⟩ := withPayload_next h
  split at h
  · exact .inl ⟨_, raise_next.1 h⟩
  · refine .inr ⟨p, _, hp, ‹_›, ?_⟩
    split at h
    · exact .inl ⟨_, raise_next.1 h⟩
    · split at h
      · exact .inr ⟨_, ‹_›, ‹_›, h⟩
      · exact .inl ⟨_, raise_next.1 h⟩

/-- The width of a field never passes the end of the payload. -/
theorem fieldWidth_le {code : FieldCode} {rest p : List Byte} {c w : Nat} (hc : c ≤ p.length)
    (h : fieldWidth code rest p c = .ok w) : c + w ≤ p.length := by
  unfold fieldWidth at h
  split at h
  · split at h
    · cases h
    · cases h; omega
  · split at h
    · cases h; omega
    · split at h
      · split at h
        · rename_i d hd
          cases h
          have := (List.findIdx?_eq_some_iff_findIdx_eq.1 hd).1
          simp only [List.length_drop] at this
          omega
        · cases h
      · split at h
        · cases h
        · cases h; omega

/-- A slot that holds a value lies below IN_CNT. -/
theorem slotInVal_lt {s : State} {i : Nat} {v : SlotVal} (h : slotInVal s i = some v) : i < s.inCnt := by
  unfold slotInVal at h
  split at h
  · assumption
  · cases h

/-- A placeholder that has a kind lies below OUT_CNT. -/
theorem slotOutKind_lt {s : State} {i : Nat} {k : Kind} (h : slotOutKind s i = some k) : i < s.outCnt := by
  unfold slotOutKind at h
  split at h
  · assumption
  · cases h

/-- The end of a variable-width field fills its slot or raises. -/
theorem finishField_cases {vc : VarCode} {u : List Byte} {s t : State} (h : finishField vc u s = .next t) :
    (∃ e, t = raised e s) ∨
    (∃ k v, slotOutKind s s.sc = some k ∧ valueOf s.cfg vc k u = some v ∧
      t = { s with
        slotOut := s.slotOut.set s.sc (some ⟨k, some v⟩), sc := s.sc + 1, tc := s.tc + 1
        act := .fieldDec s.act.inCall }) := by
  unfold finishField at h
  split at h
  · exact .inl ⟨_, raise_next.1 h⟩
  · split at h
    · refine .inr ⟨_, _, ‹_›, ‹_›, ?_⟩
      simpa [putSlot, eq_comm] using h
    · exact .inl ⟨_, raise_next.1 h⟩

/-- Unescaping goes on to the end of the field, or stops at the next escape marker. -/
theorem resumeField_cases {vc : VarCode} {raw u : List Byte} {j : Nat} {s t : State}
    (h : resumeField vc raw j u s = .next t) :
    finishField vc (u ++ raw.drop j) s = .next t ∨
    t = { s with
      act := .unescape s.act.inCall vc, fldRaw := raw, fldJ := j + (plainRun (raw.drop j)).length
      fldU := u ++ plainRun (raw.drop j) } := by
  unfold resumeField at h
  split at h
  · exact .inl h
  · exact .inr (by simpa [eq_comm] using h)

/-- `FRM.ENC` raises with nothing written, or puts the frame at FBUF[0]. -/
theorem frameEncode_cases {id num : Byte} {st : Option DeviceStatus} {s t : State} {k : List Byte → State → Out}
    (h : frameEncode id num st s k = .next t) :
    (∃ e, t = raised e { s with expst := st.isSome }) ∨
    (∃ p, Memory.readBytes s.pbuf 0 s.plen = some p ∧
      lengthPayload p.length st ≤ s.cfg.payloadMax ∧
      k (frameBytes s.cfg.coverage id num p st)
        { s with
          expst := st.isSome
          fbuf := Memory.writeBytes s.fbuf 0 (frameBytes s.cfg.coverage id num p st)
          flen := (frameBytes s.cfg.coverage id num p st).length } = .next t) := by
  unfold frameEncode at h
  split at h
  · exact .inl ⟨_, raise_next.1 h⟩
  · obtain ⟨p, hp, h⟩ := withPayload_next h
    refine .inr ⟨p, hp, ?_, h⟩
    rw [Memory.readBytes_length hp]
    omega

/-- `FE.RUN` starts its token loop, or raises before any byte is produced. -/
theorem startFieldEnc_cases {c : Bool} {t : List Byte} {s s' : State} (h : startFieldEnc c t s = .next s') :
    (∃ e, staticEnc s t = some e ∧ s' = raised e { s with act := .fieldEnc c }) ∨
    (staticEnc s t = none ∧
      s' = { s with act := .fieldEnc c, tmpl := t, tc := 0, pc := 0, sc := 0 }) := by
  unfold startFieldEnc at h
  split at h
  · exact .inl ⟨_, ‹_›, raise_next.1 h⟩
  · exact .inr ⟨‹_›, by simpa [eq_comm] using h⟩

/-- `FD.RUN` starts its token loop, or raises before any byte is consumed. -/
theorem startFieldDec_cases {c : Bool} {t : List Byte} {s s' : State} (h : startFieldDec c t s = .next s') :
    (∃ e, staticDec s t = some e ∧ s' = raised e { s with act := .fieldDec c }) ∨
    (staticDec s t = none ∧
      s' = { s with act := .fieldDec c, tmpl := t, tc := 0, pc := 0, sc := 0, outOk := false }) := by
  unfold startFieldDec at h
  split at h
  · exact .inl ⟨_, ‹_›, raise_next.1 h⟩
  · exact .inr ⟨‹_›, by simpa [eq_comm] using h⟩

/-- A status query answers a flag while SRV = 1, else `ParamMismatch`. -/
theorem statusQuery_cases {f : DeviceStatus → Bool} {s t : State} (h : statusQuery f s = .next t) :
    (s.srv = true ∧ t = { startOp s with result := .flag (f s.sr) }) ∨
    (s.srv = false ∧ t = raised (.paramMismatch .noStatus) s) := by
  unfold statusQuery at h
  split at h
  · exact .inl ⟨‹_›, by simpa [eq_comm] using h⟩
  · exact .inr ⟨by simpa using ‹¬ s.srv = true›, raise_next.1 h⟩

/-- What a reading step of `FRM.DEC` takes off the channel. -/
theorem chanRead_cases (s : State) :
    (s.rx = [] ∧ chanRead s = .wait) ∨
    (∃ rest, s.rx = .fail :: rest ∧ chanRead s = .fail { s with rx := rest }) ∨
    (∃ b rest, s.rx = .byte b :: rest ∧ chanRead s = .byte b { s with rx := rest, rxUsed := s.rxUsed + 1 }) := by
  unfold chanRead
  split
  · exact .inl ⟨‹_›, rfl⟩
  · exact .inr (.inl ⟨_, ‹_›, rfl⟩)
  · exact .inr (.inr ⟨_, _, ‹_›, rfl⟩)

end Sys2Proof.Machine
end

