-- ==== Sys2Proof/Laws/Step.lean ====
section
/-! SUPPORT. The step: what it fetches when the host waits, and runs of several steps. -/

namespace Sys2Proof.Machine

/-- With an operation in progress and no early action of the host, the step is the operation's own. -/
theorem fetch_of_waits {s : State} (hw : Safety.hostWaits s = true) (ha : s.act ≠ .idle) : fetch s = running s := by
  unfold Safety.hostWaits at hw
  unfold fetch
  cases hp : s.port with
  | nil => rfl
  | cons e r =>
    simp only [hp, Bool.not_eq_true'] at hw
    simp [ha, hw]

/-- In a reading state of `FRM.DEC` a byte on the channel is taken off and handed to the receive machine. -/
theorem fetch_of_rx {s : State} {c : Bool} {b : Byte} {rest : List ChanAnswer} (hw : Safety.hostWaits s = true)
    (ha : s.act = .frameDec c) (h1 : s.rxs ≠ .check) (h2 : s.rxs ≠ .done) (h3 : s.rxs ≠ .idle) (h4 : s.rxs ≠ .fail)
    (h5 : s.rxs = .payload → s.rxcnt ≠ 0) (hx : s.rx = .byte b :: rest) :
    fetch s = rxByte b { s with rx := rest, rxUsed := s.rxUsed + 1 } := by
  rw [fetch_of_waits hw (by simp [ha])]
  simp only [running, ha, rxStep]
  split
  · rename_i h
    rw [if_neg (h5 h)]
    simp [rxRead, chanRead, hx, ha]
  · exact absurd ‹_› h1
  · exact absurd ‹_› h2
  · exact absurd ‹_› h3
  · exact absurd ‹_› h4
  · simp [rxRead, chanRead, hx, ha]

theorem step_of_run {s s' : State} {i : Instr} (h : fetch s = .run i s') : step s = exec i s' := by
  simp [step, h]

theorem step_of_done {s : State} {o : Out} (h : fetch s = .done o) : step s = o := by
  simp [step, h]

theorem runSteps_succ {s s' : State} (h : step s = .next s') (n : Nat) : runSteps (n + 1) s = runSteps n s' := by
  simp [runSteps, h]

theorem runSteps_add {a : Nat} {s t : State} (h : runSteps a s = .next t) (b : Nat) :
    runSteps (a + b) s = runSteps b t := by
  induction a generalizing s with
  | zero =>
    simp only [runSteps, Host.Outcome.next.injEq] at h
    simp [h]
  | succ a ih =>
    rw [Nat.add_right_comm]
    cases hs : step s with
    | next s' =>
      rw [runSteps_succ hs] at h ⊢
      exact ih h
    | fault f => simp [runSteps, hs] at h
    | refused r => simp [runSteps, hs] at h

/-- Runs of several steps are the host's runs. -/
theorem runSteps_eq_core_run (n : Nat) (s : State) : runSteps n s = Host.Core.run Sys2Proof.core n s := by
  induction n generalizing s with
  | zero => rfl
  | succ n ih =>
    simp only [runSteps, Host.Core.run, Sys2Proof.core]
    cases step s with
    | next s' => exact ih s'
    | fault f => rfl
    | refused r => rfl

end Sys2Proof.Machine
end

