-- ==== Sys2Proof/Tests/Slice0.lean ====
section
/-! SUPPORT. The model's own tests: words written out from spec/opcode_table.json, vectors of spec/95_test_vectors.md
(parts 1 and 2), and for every obligation with hypotheses a state that meets them. -/

namespace Sys2Proof.Tests

open Config Machine Safety

/-! ### Helpers -/

/-- EXMAP of spec/95_test_vectors.md. -/
def exMap : StatusMap where
  errSyntax := ⟨0, 0⟩
  errMechanism := ⟨0, 1⟩
  errDate := ⟨0, 2⟩
  errRibbonOut := ⟨0, 3⟩
  errRibbonControl := ⟨0, 4⟩
  errMemoryFull := ⟨0, 5⟩
  errWrite := ⟨1, 0⟩
  errReadOnly := ⟨1, 1⟩
  errDailyReport := ⟨1, 2⟩
  errRam := ⟨1, 3⟩
  errModuleMissing := ⟨1, 4⟩
  errAmountTooBig := ⟨1, 5⟩
  errNotAllowed := ⟨2, 0⟩
  errMemoryCleared := ⟨2, 1⟩
  warnDisplayDisconnected := ⟨4, 0⟩
  warnCoverOpen := ⟨4, 1⟩
  warnRibbonLow := ⟨4, 2⟩
  warnControlRibbonLow := ⟨4, 3⟩
  warnSpaceLow := ⟨4, 4⟩
  fiscalReceiptOpen := ⟨5, 0⟩
  nonFiscalReceiptOpen := ⟨5, 2⟩

/-- The state after reset, with EXMAP. -/
def t0 : State := { State.reset with cfg := { defaultConfiguration with statusMap := exMap } }

/-- What a projection of the next state is; `none` where there is no next state. -/
def after {α : Type} (o : Out) (f : State → α) : Option α :=
  match o with
  | .next t => some (f t)
  | .fault _ => none
  | .refused _ => none

/-- A running `FE.RUN` with one slot. -/
def fe (v : SlotVal) (pc : Nat) : State :=
  { t0 with act := .fieldEnc false, inCnt := 1, slotIn := [some v], pc := pc }

/-- A running `FD.RUN` of a template on a payload, with one placeholder. -/
def fd (t p : List Byte) (k : Kind) : State :=
  { t0 with
    act := .fieldDec false, tmpl := t, pbuf := Memory.writeBytes [] 0 p, plen := p.length, outCnt := 1
    slotOut := [some ⟨k, none⟩] }

/-- A running `FRM.DEC`. -/
def rx (r : Rxs) (cnt : Nat) (len : Byte) (e : Bool) (a : List ChanAnswer) : State :=
  { t0 with act := .frameDec false, rxs := r, rxcnt := cnt, rxlen := len, expst := e, rx := a }

/-- A phase of `SES.CALL` with status byte 0 given and `err_ribbon_out` as the retry predicate. -/
def ses (a : Activity) (st : Byte) (limit : Option Nat) : State :=
  { t0 with
    act := a, srv := true, sr := ⟨st, 0x80#8, 0x80#8, 0x80#8, 0x80#8, 0x80#8⟩
    cfg := { t0.cfg with retryPred := .bit ⟨0, 3⟩, retryLimit := limit } }

/-- One action of the host at the port of an idle machine. -/
def port (a : HostAct) : State := { t0 with port := [⟨false, a⟩] }

/-- A request without operands of its own. -/
def req (op : BitVec 4) (f : BitVec 5) : HostAct := .start ⟨op, false, f, Operands.zero⟩

/-- The source's example header `01 24 20 21`. -/
def hdrEx : Quad := ⟨0x01#8, 0x24#8, 0x20#8, 0x21#8⟩

/-! ### Well-formedness: each check refuses an ill-formed term -/

theorem test_wellFormed_feLit : ¬ WellFormed (.feLit 0x57#8) := by decide
theorem test_wellFormed_fdLit : ¬ WellFormed (.fdLit 0x42#8) := by decide
theorem test_wellFormed_rxBad : ¬ WellFormed (.rxBad 0x16#8) := by decide
theorem test_wellFormed_stFlag : ¬ WellFormed (.stFlag 3#5) := by decide

/-! ### Decoding: words from spec/opcode_table.json -/

theorem test_decode_op4 :
    decode (.op4 0b0001#4) = .ok .bccSum ∧ decode (.op4 0b0010#4) = .ok .bccRender ∧
    decode (.op4 0b0011#4) = .ok .bccVerify ∧ decode (.op4 0b0100#4) = .ok .feRun ∧
    decode (.op4 0b0101#4) = .ok .fdRun ∧ decode (.op4 0b1001#4) = .ok .stHasErr ∧
    decode (.op4 0b1010#4) = .ok .stHasWarn ∧ decode (.op4 0b1011#4) = .ok .sesCall ∧
    decode (.op4 0b0000#4) = .ok .illegal0 ∧ decode (.op4 0b1100#4) = .ok .illegalC ∧
    decode (.op4 0b1101#4) = .ok .illegalD ∧ decode (.op4 0b1110#4) = .ok .illegalE ∧
    decode (.op4 0b1111#4) = .ok .illegalF := by decide

theorem test_decode_expst :
    decode (.op4Expst 0b01100#5) = .ok .frmEncHost ∧ decode (.op4Expst 0b01101#5) = .ok .frmEncDevice ∧
    decode (.op4Expst 0b01110#5) = .ok (.frmDec false) ∧ decode (.op4Expst 0b01111#5) = .ok (.frmDec true) := by decide

theorem test_decode_flag :
    decode (.op4Flag5 0b100000000#9) = .ok .stErrSyntax ∧ decode (.op4Flag5 0b100000001#9) = .ok .stErrMechanism ∧
    decode (.op4Flag5 0b100000010#9) = .ok .stErrDate ∧ decode (.op4Flag5 0b100000011#9) = .ok .stErrRibbonOut ∧
    decode (.op4Flag5 0b100000100#9) = .ok .stErrRibbonControl ∧
    decode (.op4Flag5 0b100000101#9) = .ok .stErrMemoryFull ∧ decode (.op4Flag5 0b100000110#9) = .ok .stErrWrite ∧
    decode (.op4Flag5 0b100000111#9) = .ok .stErrReadOnly ∧ decode (.op4Flag5 0b100001000#9) = .ok .stErrDailyReport ∧
    decode (.op4Flag5 0b100001001#9) = .ok .stErrRam ∧ decode (.op4Flag5 0b100001010#9) = .ok .stErrModuleMissing ∧
    decode (.op4Flag5 0b100001011#9) = .ok .stErrAmountTooBig ∧
    decode (.op4Flag5 0b100001100#9) = .ok .stErrNotAllowed ∧
    decode (.op4Flag5 0b100001101#9) = .ok .stErrMemoryCleared := by decide

theorem test_decode_flag2 :
    decode (.op4Flag5 0b100001110#9) = .ok .stWarnDisplayDisconnected ∧
    decode (.op4Flag5 0b100001111#9) = .ok .stWarnCoverOpen ∧ decode (.op4Flag5 0b100010000#9) = .ok .stWarnRibbonLow ∧
    decode (.op4Flag5 0b100010001#9) = .ok .stWarnControlRibbonLow ∧
    decode (.op4Flag5 0b100010010#9) = .ok .stWarnSpaceLow ∧ decode (.op4Flag5 0b100010011#9) = .ok .stFiscalized ∧
    decode (.op4Flag5 0b100010100#9) = .ok .stFiscalReceiptOpen ∧
    decode (.op4Flag5 0b100010101#9) = .ok .stNonFiscalReceiptOpen ∧
    decode (.op4Flag5 0b100010110#9) = .ok (.stFlag 22#5) ∧
    decode (.op4Flag5 0b100011111#9) = .ok (.stFlag 31#5) := by decide

theorem test_decode_token :
    decode (.token8 .enc 0x57#8) = .ok .feW ∧ decode (.token8 .dec 0x57#8) = .ok .fdW ∧
    decode (.token8 .enc 0x42#8) = .ok .feB ∧ decode (.token8 .dec 0x42#8) = .ok .fdB ∧
    decode (.token8 .enc 0x54#8) = .ok .feT ∧ decode (.token8 .dec 0x54#8) = .ok .fdT ∧
    decode (.token8 .enc 0x51#8) = .ok .feQ ∧ decode (.token8 .dec 0x51#8) = .ok .fdQ ∧
    decode (.token8 .enc 0x71#8) = .ok .feQs ∧ decode (.token8 .dec 0x71#8) = .ok .fdQs ∧
    decode (.token8 .enc 0x77#8) = .ok (.feLit 0x77#8) ∧ decode (.token8 .dec 0x2C#8) = .ok (.fdLit 0x2C#8) := by decide

theorem test_decode_rx :
    decode (.rxFirst8 0x01#8) = .ok .rxStart ∧ decode (.rxFirst8 0x15#8) = .ok .rxNak ∧
    decode (.rxFirst8 0x16#8) = .ok .rxBusy ∧ decode (.rxFirst8 0xFF#8) = .ok (.rxBad 0xFF#8) ∧
    decode (.wire8 0x04#8) = .ok .stmark ∧ decode (.wire8 0x05#8) = .ok .pterm ∧ decode (.wire8 0x03#8) = .ok .fterm ∧
    decode (.wire8 0x10#8) = .ok .esc ∧ decode .internal = .ok .sesNextId := by decide

/-- Words that stand for no instruction are refused by name. -/
theorem test_decode_rejects :
    decode (.op4 0x6#4) = .error .needsExpst ∧ decode (.op4 0x8#4) = .error .needsFlagIndex ∧
    decode (.op4Expst 0b00010#5) = .error .takesNoExpst ∧ decode (.op4Flag5 0b000100000#9) = .error .takesNoFlagIndex ∧
    decode (.wire8 0x06#8) = .error .notStructural := by decide

/-- Bare table words, and the first step that runs them. -/
theorem test_decodeTableWord :
    decodeTableWord 8 0x0B = some .sesCall ∧ decodeTableWord 8 0x0D = some .illegalD ∧
    decodeTableWord 16 0x113 = some .stFiscalized ∧ decodeTableWord 8 0x57 = some .feW ∧
    decodeTableWord 8 0x16 = some .rxBusy ∧ decodeTableWord 8 0x10 = some .esc ∧
    decodeTableWord 0 0 = some .sesNextId ∧ decodeTableWord 16 0x0FF = none := by decide

theorem test_withFetchWord :
    after (step (State.reset.withFetchWord 8 0x0B)) (fun t => t.err) = some (.unknownCommand []) ∧
    after (step (State.reset.withFetchWord 8 0x16)) (fun t => t.busycnt) = some 1 ∧
    after (step (State.reset.withFetchWord 8 0x2C)) (fun t => Memory.read t.pbuf 0) = some (some 0x2C#8) ∧
    after (step (State.reset.withFetchWord 0 0)) (fun t => t.mid) = some 33#8 := by decide

/-! ### CHK: 95_test_vectors 2.1 -/

theorem test_bccSum_source_example :
    after (exec .bccSum { t0 with opnd := { Operands.zero with h := hdrEx } }) (fun t => t.result) =
      some (.sum 0x006A#16) := by decide

/-- Header `01 2B 20 21`, the example block: 0x03B0, 0x0071, 0x03B4. -/
theorem test_bccSum_coverage :
    ([Coverage.block, .none, .markerAndBlock].map fun c =>
      bccSum c [0x01#8, 0x2B#8, 0x20#8, 0x21#8] [] (some ⟨0x80#8, 0x80#8, 0x80#8, 0x85#8, 0x80#8, 0xBA#8⟩)) =
      [0x03B0#16, 0x0071#16, 0x03B4#16] := by decide

set_option maxRecDepth 8000 in
/-- 257 bytes FF under a header of FF: 0x03FF, the modulo. -/
theorem test_bccSum_wraps :
    bccSum .block [0xFF#8, 0xFF#8, 0xFF#8, 0xFF#8] (List.replicate 257 0xFF#8) none = 0x03FF#16 := by decide

theorem test_bccRender :
    bccRender 0x006A#16 = ⟨0x30#8, 0x30#8, 0x36#8, 0x3A#8⟩ ∧ bccRender 0xABCD#16 = ⟨0x3A#8, 0x3B#8, 0x3C#8, 0x3D#8⟩ := by
  decide

theorem test_bccVerify :
    after (exec .bccVerify { t0 with opnd := { Operands.zero with h := hdrEx, r := ⟨0x30#8, 0x30#8, 0x36#8, 0x3A#8⟩ } })
      (fun t => t.result) = some .verified ∧
    after (exec .bccVerify { t0 with opnd := { Operands.zero with h := hdrEx, r := ⟨0x30#8, 0x30#8, 0x36#8, 0x41#8⟩ } })
      (fun t => t.err) =
      some (.checksumMismatch ⟨0x30#8, 0x30#8, 0x36#8, 0x3A#8⟩ ⟨0x30#8, 0x30#8, 0x36#8, 0x41#8⟩) := by decide

/-! ### FLD, encoding: 95_test_vectors 2.2 -/

theorem test_feLit :
    after (exec (.feLit 0x09#8) (fe (.int 0) 3)) (fun t => (Memory.read t.pbuf 3, t.pc, t.sc)) =
      some (some 0x09#8, 4, 0) := by decide

theorem test_feW :
    after (exec .feW (fe (.int 6699) 0)) (fun t => Memory.readBytes t.pbuf 0 t.pc) =
      some (some [0x31#8, 0x41#8, 0x32#8, 0x42#8]) ∧
    after (exec .feW (fe (.int 65536) 0)) (fun t => t.err) = some (.encodeRange 0 .w (.int 65536)) := by decide

theorem test_feB_int :
    after (exec .feB (fe (.int (-2147483648)) 0)) (fun t => Memory.readBytes t.pbuf 0 t.pc) =
      some (some [0x2D#8, 0x32#8, 0x31#8, 0x34#8, 0x37#8, 0x34#8, 0x38#8, 0x33#8, 0x36#8, 0x34#8, 0x38#8]) := by decide

theorem test_feB_real :
    after (exec .feB (fe (.real (-5) 3) 0)) (fun t => Memory.readBytes t.pbuf 0 t.pc) =
      some (some [0x2D#8, 0x30#8, 0x2E#8, 0x30#8, 0x30#8, 0x35#8]) := by decide

theorem test_feT :
    after (exec .feT (fe (.text [0xC8#8, 0x0A#8, 0x0D#8]) 0)) (fun t => Memory.readBytes t.pbuf 0 t.pc) =
      some (some [0xC8#8, 0x10#8, 0x4A#8, 0x10#8, 0x4D#8]) ∧
    after (exec .feT (fe (.char 0x01#8) 0)) (fun t => Memory.readBytes t.pbuf 0 t.pc) =
      some (some [0x10#8, 0x41#8]) := by decide

theorem test_feQ :
    after (exec .feQ (fe (.datetime ⟨11, 11, 2026, 9, 5, 7⟩) 0)) (fun t => Memory.readBytes t.pbuf 0 t.pc) =
      some (some [0x31#8, 0x31#8, 0x2D#8, 0x31#8, 0x31#8, 0x2D#8, 0x32#8, 0x36#8, 0x20#8, 0x30#8, 0x39#8, 0x2D#8,
        0x30#8, 0x35#8]) ∧
    after (exec .feQ (fe (.datetime ⟨100, 1, 26, 0, 0, 0⟩) 0)) (fun t => t.err) =
      some (.encodeRange 0 .q (.datetime ⟨100, 1, 26, 0, 0, 0⟩)) := by decide

theorem test_feQs :
    after (exec .feQs (fe (.datetime ⟨11, 11, 2026, 9, 5, 7⟩) 0)) (fun t => (Memory.readBytes t.pbuf 14 3, t.pc)) =
      some (some [0x2D#8, 0x30#8, 0x37#8], 17) ∧
    after (exec .feQs (fe (.datetime ⟨1, 1, 26, 0, 0, 100⟩) 0)) (fun t => t.err) =
      some (.encodeRange 0 .qs (.datetime ⟨1, 1, 26, 0, 0, 100⟩)) := by decide

/-- `FE.RUN "W,T"` on one slot, and `FE.RUN "W"` on a TEXT. -/
theorem test_feRun :
    after (exec .feRun { fe (.int 6699) 0 with act := .idle, opnd := { Operands.zero with template := [0x57#8, 0x2C#8, 0x54#8] } })
      (fun t => t.err) = some (.paramMismatch (.count 2 1)) ∧
    after (exec .feRun { fe (.text [0x41#8]) 0 with act := .idle, opnd := { Operands.zero with template := [0x57#8] } })
      (fun t => t.err) = some (.paramMismatch (.slot 0 .w (some .text))) := by decide

/-! ### FLD, decoding: 95_test_vectors 2.3 -/

/-- `FD.RUN "BT"` and `FD.RUN "TW,B"`: TemplateRefused(0). -/
theorem test_fdRun :
    after (exec .fdRun { fd [] [] .int with opnd := { Operands.zero with template := [0x42#8, 0x54#8] } }) (fun t => t.err) =
      some (.templateRefused 0) ∧
    after (exec .fdRun { fd [] [] .int with opnd := { Operands.zero with template := [0x54#8, 0x57#8, 0x2C#8, 0x42#8] } })
      (fun t => t.err) = some (.templateRefused 0) := by decide

theorem test_fdLit :
    after (exec (.fdLit 0x2C#8) (fd [0x2C#8] [0x3B#8] .int)) (fun t => t.err) =
      some (.decodeMismatch (.expected 0 (some 0x3B#8) 0x2C#8)) ∧
    after (exec (.fdLit 0x2C#8) (fd [0x2C#8] [0x2C#8] .int)) (fun t => (t.pc, t.sc)) = some (1, 0) := by decide

theorem test_fdW :
    after (exec .fdW (fd [0x57#8] [0x31#8, 0x41#8, 0x32#8, 0x42#8] .int)) (fun t => t.slotOut) =
      some [some ⟨.int, some (.int 6699)⟩] ∧
    after (exec .fdW (fd [0x57#8] [0x30#8, 0x30#8, 0x36#8, 0x3A#8] .int)) (fun t => t.err) =
      some (.decodeMismatch (.parseByte .w 0x3A#8)) := by decide

theorem test_fdB :
    after (exec .fdB (fd [0x42#8] [0x31#8, 0x32#8, 0x2E#8, 0x35#8, 0x30#8] .real)) (fun t => t.slotOut) =
      some [some ⟨.real, some (.real 1250 2)⟩] ∧
    after (exec .fdB (fd [0x42#8] [0x32#8, 0x31#8, 0x34#8, 0x37#8, 0x34#8, 0x38#8, 0x33#8, 0x36#8, 0x34#8, 0x38#8] .int))
      (fun t => t.err) =
      some (.decodeMismatch (.parseText .b [0x32#8, 0x31#8, 0x34#8, 0x37#8, 0x34#8, 0x38#8, 0x33#8, 0x36#8, 0x34#8,
        0x38#8])) := by decide

/-- spec/95_test_vectors.md: `"B"` on `31 10 72` is INT 12; FD.B stops at the marker and ESC fills the slot. -/
theorem test_fdB_escaped :
    after (exec .fdB (fd [0x42#8] [0x31#8, 0x10#8, 0x72#8] .int)) (fun t => (t.act, t.fldJ, t.fldU, t.pc)) =
      some (.unescape false .b, 1, [0x31#8], 3) ∧
    after (exec .esc { fd [0x42#8] [0x31#8, 0x10#8, 0x72#8] .int with
      act := .unescape false .b, pc := 3, fldRaw := [0x31#8, 0x10#8, 0x72#8], fldJ := 1, fldU := [0x31#8] })
      (fun t => t.slotOut) = some [some ⟨.int, some (.int 12)⟩] := by decide

theorem test_fdT :
    after (exec .fdT (fd [0x54#8, 0x3B#8] [0x41#8, 0x3B#8, 0x42#8, 0x3B#8] .text)) (fun t => (t.slotOut, t.pc)) =
      some ([some ⟨.text, some (.text [0x41#8])⟩], 1) ∧
    after (exec .fdT (fd [0x54#8] [0x41#8, 0x10#8, 0x49#8, 0x42#8] .text)) (fun t => (t.act, t.fldJ, t.fldU)) =
      some (.unescape false .t, 1, [0x41#8]) := by decide

/-- The case `10 10 50`: DecodeMismatch(escape, pos 1, observed 10); and `41 10 49 42` gives `41 09 42`. -/
theorem test_esc :
    after (exec .esc { fd [0x54#8] [0x10#8, 0x10#8, 0x50#8] .text with
      act := .unescape false .t, pc := 3, fldRaw := [0x10#8, 0x10#8, 0x50#8] }) (fun t => t.err) =
      some (.decodeMismatch (.escape 1 (some 0x10#8))) ∧
    after (exec .esc { fd [0x54#8] [0x41#8, 0x10#8, 0x49#8, 0x42#8] .text with
      act := .unescape false .t, pc := 4, fldRaw := [0x41#8, 0x10#8, 0x49#8, 0x42#8], fldJ := 1, fldU := [0x41#8] })
      (fun t => t.slotOut) = some [some ⟨.text, some (.text [0x41#8, 0x09#8, 0x42#8])⟩] := by decide

theorem test_fdQ :
    after (exec .fdQ (fd [0x51#8] [0x39#8, 0x39#8, 0x2D#8, 0x39#8, 0x39#8, 0x2D#8, 0x39#8, 0x39#8, 0x20#8, 0x39#8,
      0x39#8, 0x2D#8, 0x39#8, 0x39#8] .datetime)) (fun t => t.slotOut) =
      some [some ⟨.datetime, some (.datetime ⟨99, 99, 99, 99, 99, 0⟩)⟩] ∧
    after (exec .fdQ (fd [0x51#8] [0x31#8, 0x31#8, 0x2D#8, 0x31#8, 0x31#8, 0x2D#8, 0x32#8, 0x36#8, 0x20#8, 0x30#8,
      0x39#8, 0x3A#8, 0x30#8, 0x35#8] .datetime)) (fun t => t.err) =
      some (.decodeMismatch (.expected 11 (some 0x3A#8) 0x2D#8)) := by decide

theorem test_fdQs :
    after (exec .fdQs (fd [0x71#8] [0x31#8, 0x31#8, 0x2D#8, 0x31#8, 0x31#8, 0x2D#8, 0x32#8, 0x36#8, 0x20#8, 0x30#8,
      0x39#8, 0x2D#8, 0x30#8, 0x35#8, 0x2D#8, 0x30#8, 0x37#8] .datetime)) (fun t => t.slotOut) =
      some [some ⟨.datetime, some (.datetime ⟨11, 11, 26, 9, 5, 7⟩)⟩] ∧
    after (exec .fdQs (fd [0x71#8] (List.replicate 14 0x31#8) .datetime)) (fun t => t.err) =
      some (.decodeMismatch (.short 0 .qs)) := by decide

/-! ### FRM: 95_test_vectors 2.4, 2.5 -/

theorem test_frmEncHost_source_example :
    after (exec .frmEncHost { t0 with opnd := { Operands.zero with id := 0x20#8, num := 0x21#8 } }) (fun t => t.result) =
      some (.frame [0x01#8, 0x24#8, 0x20#8, 0x21#8, 0x05#8, 0x30#8, 0x30#8, 0x36#8, 0x3A#8, 0x03#8]) := by decide

theorem test_frmEncDevice :
    after (exec .frmEncDevice { t0 with opnd := { Operands.zero with
      id := 0x20#8, num := 0x21#8, status := ⟨0x80#8, 0x80#8, 0x80#8, 0x85#8, 0x80#8, 0xBA#8⟩ } }) (fun t => t.result) =
      some (.frame [0x01#8, 0x2B#8, 0x20#8, 0x21#8, 0x04#8, 0x80#8, 0x80#8, 0x80#8, 0x85#8, 0x80#8, 0xBA#8, 0x05#8,
        0x30#8, 0x33#8, 0x3B#8, 0x30#8, 0x03#8]) := by decide

theorem test_frmDec :
    after (exec (.frmDec true) t0) (fun t => (t.act, t.rxs, t.expst)) = some (.frameDec false, .waitStart, true) := by
  decide

theorem test_rxStart :
    after (exec .rxStart (rx .waitStart 1 0 false [])) (fun t => (Memory.read t.fbuf 0, t.rxs, t.rxcnt)) =
      some (some 0x01#8, .hdr, 3) := by decide
theorem test_rxNak :
    after (step (rx .waitStart 1 0 false [.byte 0x15#8, .byte 0x01#8])) (fun t => (t.err, t.rxs, t.rx)) =
      some (.protocolReject, .fail, [.byte 0x01#8]) := by decide
theorem test_rxBusy :
    after (exec .rxBusy { rx .waitStart 1 0 false [] with busycnt := 2, cfg := { t0.cfg with busyLimit := some 2 } })
      (fun t => t.err) = some (.busyLimit 3) := by decide
theorem test_rxBad :
    after (exec (.rxBad 0x02#8) (rx .waitStart 1 0 false [])) (fun t => t.err) =
      some (.malformedFrame 0 0x02#8 (.byte 0x01#8)) := by decide
theorem test_stmark :
    after (exec .stmark (rx .stmark 1 0x2B#8 true [])) (fun t => (Memory.read t.fbuf 4, t.rxs, t.rxcnt)) =
      some (some 0x04#8, .status, 6) := by decide
theorem test_pterm :
    after (exec .pterm (rx .pterm 1 0x2B#8 true [])) (fun t => (Memory.read t.fbuf 11, t.rxs, t.rxcnt)) =
      some (some 0x05#8, .bcc, 4) := by decide
theorem test_fterm :
    after (exec .fterm (rx .fterm 1 0x24#8 false [])) (fun t => (Memory.read t.fbuf 9, t.rxs, t.flen)) =
      some (some 0x03#8, .check, 10) := by decide

/-- A frame whose LEN is 0x24 read with EXPST = 1: MalformedFrame(pos 1, observed 24, expected at least 43). -/
theorem test_lengthCheck :
    after (step { rx .hdr 1 0x24#8 true [.byte 0x21#8] with rxcnt := 1 }) (fun t => t.err) =
      some (.malformedFrame 1 0x24#8 (.atLeast 43)) := by decide

/-- R144: the header is read whole before FBUF[1] is written. -/
theorem test_hdr_reads_before_it_stores :
    after (step (rx .hdr 3 0 false [.byte 0x24#8])) (fun t => (t.rxlen, Memory.read t.fbuf 1)) = some (0x24#8, none) ∧
    after (step { rx .hdr 1 0x24#8 false [.byte 0x21#8] with rxid := 0x20#8 })
      (fun t => (Memory.readBytes t.fbuf 1 3, t.rxs)) = some (some [0x24#8, 0x20#8, 0x21#8], .payload) := by decide

/-! ### STS: 95_test_vectors 2.6 -/

/-- `80 80 82 80 80 85`: err_memory_cleared, fiscal_receipt_open and non_fiscal_receipt_open, under EXMAP. -/
theorem test_namedFlags :
    (allFlags.filter fun f => flagOf exMap f ⟨0x80#8, 0x80#8, 0x82#8, 0x80#8, 0x80#8, 0x85#8⟩) =
      [.errMemoryCleared, .fiscalReceiptOpen, .nonFiscalReceiptOpen] := by decide

/-- With SR = `80 80 80 80 82 88` exactly the rows of warn_cover_open and fiscalized answer true. -/
theorem test_flagRows :
    (flagRows.map fun i =>
      after (exec i { t0 with srv := true, sr := ⟨0x80#8, 0x80#8, 0x80#8, 0x80#8, 0x82#8, 0x88#8⟩ }) (fun t => t.result)) =
      (List.range 22).map (fun k => some (.flag (k == 15 || k == 19))) := by decide

theorem test_stHasErr :
    after (exec .stHasErr { t0 with srv := true, sr := ⟨0x80#8, 0xA0#8, 0x80#8, 0x80#8, 0x80#8, 0x80#8⟩ })
      (fun t => t.result) = some (.flag true) ∧
    after (exec .stHasErr t0) (fun t => t.err) = some (.paramMismatch .noStatus) := by decide

theorem test_stHasWarn :
    after (exec .stHasWarn { t0 with srv := true, sr := ⟨0x80#8, 0x80#8, 0x80#8, 0x80#8, 0x82#8, 0x88#8⟩ })
      (fun t => t.result) = some (.flag true) ∧
    after (exec .stHasWarn { t0 with srv := true, sr := ⟨0x80#8, 0x80#8, 0x80#8, 0xFF#8, 0x80#8, 0x80#8⟩ })
      (fun t => t.result) = some (.flag false) := by decide

theorem test_stFlag :
    after (exec (.stFlag 22#5) t0) (fun t => t.err) = some .illegalOp := by decide

theorem test_illegal :
    [Instr.illegal0, .illegalC, .illegalD, .illegalE, .illegalF].all
      (fun i => decide (after (exec i t0) (fun t => (t.err, t.result)) = some (.illegalOp, .none))) = true := by decide

/-! ### SEQ: 95_test_vectors 2.7 -/

theorem test_sesNextId :
    after (exec .sesNextId { t0 with mid := 126#8 }) (fun t => (t.callId, t.mid)) = some (126#8, 127#8) ∧
    after (exec .sesNextId { t0 with mid := 127#8 }) (fun t => (t.callId, t.mid)) = some (127#8, 32#8) := by decide

/-- `SES.CALL("M99")`: UnknownCommand, nothing written, MID unchanged, ses = Failed; "M33" is found. -/
theorem test_sesCall :
    after (exec .sesCall { t0 with opnd := { Operands.zero with cmd := [0x4D#8, 0x39#8, 0x39#8] } })
      (fun t => (t.err, t.tx, t.mid, t.ses)) = some (.unknownCommand [0x4D#8, 0x39#8, 0x39#8], [], 32#8, .failed) ∧
    after (exec .sesCall { t0 with opnd := { Operands.zero with cmd := [0x4D#8, 0x33#8, 0x33#8] } })
      (fun t => (t.desc.number, t.act)) = some (33#8, .callRound) := by decide

/-! ### What an error spoils: 60_exceptions R241, 70_reset_and_hazards R276, 10_state R15 -/

/-- The value of a failed decode does not come back with a later success and a larger OUT_CNT. -/
theorem test_failed_values_stay_gone :
    hostReadsSlotOut { t0 with outCnt := 1, outOk := true, slotOut := [some ⟨.int, some (.int 7)⟩] } 0 = some (.int 7) ∧
    hostReadsSlotOut { raised (.decodeMismatch (.trailing 4))
      { t0 with outCnt := 1, outOk := true, slotOut := [some ⟨.int, some (.int 7)⟩] } with outOk := true } 0 = none ∧
    slotOutKind (raised (.decodeMismatch (.trailing 4))
      { t0 with outCnt := 1, slotOut := [some ⟨.int, some (.int 7)⟩] }) 0 = some .int := by decide

/-- RXID and RXNUM are the host's after `FRM.DEC`, and no more after an error of another operation. -/
theorem test_idNum_after_an_error :
    (after (step { rx .done 0 0x24#8 false [] with rxid := 0x20#8, rxnum := 0x21#8 }) hostReadsIdNum) =
      some (some (0x20#8, 0x21#8)) ∧
    hostReadsIdNum (raised (.paramMismatch .noStatus) { t0 with rxs := .done, idOk := true }) = none := by decide

/-! ### Witnesses: for every obligation with hypotheses, states and operands that meet them

One theorem per obligation; its conjuncts are the hypotheses of the obligation's clauses in order, at boundary values. -/

theorem witness_DecodeOfEncodeIsTheInstruction :
    WellFormed (.feLit 0xFF#8) ∧ WellFormed (.rxBad 0x00#8) ∧ WellFormed (.stFlag 22#5) ∧ WellFormed (.frmDec true) := by
  decide

theorem witness_EncodeOfDecodeIsTheWord :
    decode (.op4Flag5 0b100010101#9) = .ok .stNonFiscalReceiptOpen ∧ decode (.wire8 0x10#8) = .ok .esc := by decide

theorem witness_SpecWordsDecodeToTheirRows :
    (0x71#8, Instr.feQs, Instr.fdQs) ∈ [(0x57#8, Instr.feW, Instr.fdW), (0x42#8, .feB, .fdB), (0x54#8, .feT, .fdT),
      (0x51#8, .feQ, .fdQ), (0x71#8, .feQs, .fdQs)] ∧
    0x72#8 ∉ [0x57#8, 0x42#8, 0x54#8, 0x51#8, (0x71#8 : Byte)] := by decide

theorem witness_StepRunsTheDecodedInstruction :
    ((port (req 0x8#4 21#5)).act = .idle ∧ (port (req 0x8#4 21#5)).port = [⟨false, req 0x8#4 21#5⟩] ∧
      decode (portWord 0x8#4 false 21#5) = .ok .stNonFiscalReceiptOpen) ∧
    ({ fe (.int 0) 0 with tmpl := [0x57#8] }.act = .fieldEnc false ∧ hostWaits { fe (.int 0) 0 with tmpl := [0x57#8] } = true ∧
      { fe (.int 0) 0 with tmpl := [0x57#8] }.tmpl[0]? = some 0x57#8) ∧
    ((fd [0x71#8] [] .int).act = .fieldDec false ∧ hostWaits (fd [0x71#8] [] .int) = true ∧
      (fd [0x71#8] [] .int).tmpl[0]? = some 0x71#8) ∧
    ((rx .waitStart 1 0 false [.byte 0x01#8]).rxs = .waitStart ∧ hostWaits (rx .waitStart 1 0 false [.byte 0x01#8]) = true ∧
      (rx .waitStart 1 0 false [.byte 0x01#8]).rx = [.byte 0x01#8]) ∧
    (((rx .pterm 1 0 false [.byte 0x05#8]).rxs, 0x05#8) ∈ [(Rxs.stmark, 0x04#8), (.pterm, 0x05#8), (.fterm, 0x03#8)] ∧
      decode (.wire8 0x05#8) = .ok .pterm) ∧
    ({ t0 with act := .unescape false .t, fldRaw := [0x10#8] }.fldRaw[0]? = some 0x10#8 ∧
      hostWaits { t0 with act := .unescape false .t, fldRaw := [0x10#8] } = true) ∧
    hostWaits { t0 with act := .callNextId } = true := by decide

/-- The two cases of `BCC.VERIFY`: the digits of the source's example frame, and with one digit altered (S5). -/
theorem witness_VerifyComparesTheDigits :
    bccRender (bccSum .block hdrEx.toList [] none) = ⟨0x30#8, 0x30#8, 0x36#8, 0x3A#8⟩ ∧
    bccRender (bccSum .block hdrEx.toList [] none) ≠ ⟨0x30#8, 0x30#8, 0x37#8, 0x3A#8⟩ := by decide

theorem witness_ChecksumSensitivityAndNoWrap :
    ([0x41#8, 0x42#8] : List Byte)[1]? = some 0x42#8 ∧ 0x43#8 ≠ 0x42#8 ∧ lengthPayload 219 none ≤ 219 ∧
    lengthPayload 212 (some DeviceStatus.zero) ≤ 219 := by decide

/-- A check that `suits` one slot of a kind that the code takes. -/
theorem suits_one {kindOf : Nat → Option Kind} {code : FieldCode} {k : Kind} (h : kindOf 0 = some k)
    (ha : accepts code k = true) : suits kindOf [code] := fun i c hc => by
  cases i with
  | zero => cases hc; exact ⟨k, h, ha⟩
  | succ i => cases hc

/-- The static checks pass on an empty template and on `W` with an INT; they fail on the count, on a slot of the wrong
kind and on a slot that holds no value. -/
theorem witness_FieldEncodeStarts :
    encodeChecks t0 [] ∧ encodeChecks (fe (.int 0) 0) [0x57#8] ∧
    encodeRefused (fe (.int 0) 0) [0x57#8, 0x54#8] (.paramMismatch (.count 2 1)) ∧
    encodeRefused (fe (.text []) 0) [0x57#8] (.paramMismatch (.slot 0 .w (some .text))) ∧
    encodeRefused { fe (.text []) 0 with slotIn := [none] } [0x57#8] (.paramMismatch (.slot 0 .w none)) :=
  ⟨⟨rfl, nofun⟩, ⟨rfl, suits_one rfl rfl⟩, ⟨_, .inl ⟨by decide, rfl⟩, rfl⟩,
    ⟨_, .inr ⟨rfl, 0, .w, rfl, nofun, by decide, rfl⟩, rfl⟩, ⟨_, .inr ⟨rfl, 0, .w, rfl, nofun, nofun, rfl⟩, rfl⟩⟩

theorem witness_LiteralTokenIsEmittedRaw : (fe (.int 0) 1023).pc + 1 ≤ 1024 ∧ 1024 < (fe (.int 0) 1024).pc + 1 := by
  decide

theorem witness_WTokenIsFourHexDigits :
    (slotInVal (fe (.int 65535) 1020) 0 = some (.int (65535 : Nat)) ∧ (fe (.int 65535) 1020).pc + 4 ≤ 1024) ∧
    slotInVal (fe (.int 65536) 0) 0 = some (.int 65536) ∧ slotInVal (fe (.int (-1)) 0) 0 = some (.int (-1)) := by decide

theorem witness_BTokenIsTheNumeral :
    (slotInVal (fe (.int (-2147483648)) 1013) 0 = some (.int (-2147483648)) ∧
      -(2 ^ (t0.cfg.intBits - 1) : Int) ≤ -2147483648 ∧ (-2147483648 : Int) < (2 ^ (t0.cfg.intBits - 1) : Int) ∧
      1013 + ([0x2D#8] ++ dec 2147483648).length ≤ 1024) ∧
    (slotInVal (fe (.real 9223372036854775807 15) 0) 0 = some (.real 9223372036854775807 15) ∧
      15 ≤ t0.cfg.realMaxScale ∧ (9223372036854775807 : Int) < (2 ^ (t0.cfg.realMantBits - 1) : Int)) ∧
    ((2 ^ (t0.cfg.intBits - 1) : Int) ≤ 2147483648) ∧ t0.cfg.realMaxScale < 16 := by decide

theorem witness_TTokenIsEscaped :
    slotInVal (fe (.text [0x1F#8, 0x20#8]) 1021) 0 = some (.text [0x1F#8, 0x20#8]) ∧
    ([0x1F#8, 0x20#8].flatMap fun b : Byte => if b.toNat < 32 then [0x10#8, b + 64#8] else [b]).length + 1021 ≤ 1024 ∧
    slotInVal (fe (.char 0x00#8) 0) 0 = some (.char 0x00#8) := by decide

theorem witness_DateTokensAreTheLayouts :
    (slotInVal (fe (.datetime ⟨99, 99, 1999, 99, 99, 99⟩) 1007) 0 = some (.datetime ⟨99, 99, 1999, 99, 99, 99⟩) ∧
      1007 + 17 ≤ 1024) ∧
    slotInVal (fe (.datetime ⟨100, 0, 0, 0, 0, 0⟩) 0) 0 = some (.datetime ⟨100, 0, 0, 0, 0, 0⟩) ∧
    slotInVal (fe (.datetime ⟨0, 0, 0, 0, 0, 100⟩) 0) 0 = some (.datetime ⟨0, 0, 0, 0, 0, 100⟩) := by decide

theorem witness_TypedTokensRaiseOnTheirSlotOrField :
    slotInVal t0 0 = none ∧
    (slotInVal (fe (.text []) 0) 0 = some (.text []) ∧ accepts .w (SlotVal.text []).kind = false) ∧
    (fieldBytes t0.cfg .w (.int 0) = some [0x30#8, 0x30#8, 0x30#8, 0x30#8] ∧ 1024 < (fe (.int 0) 1021).pc + 4) ∧
    (Memory.readBytes (fd [0x57#8] [0x31#8] .int).pbuf 0 1 = some [0x31#8] ∧
      fieldWidth .w [] [0x31#8] 0 = .error (.short 0 .w)) ∧
    (fieldWidth .t [] [0x31#8] 0 = .ok 1 ∧ slotOutKind (fd [0x54#8] [0x31#8] .int) 0 = some .int ∧
      accepts .t .int = false) := by
  refine ⟨by decide, by decide, by decide, ⟨by decide, rfl⟩, rfl, by decide, by decide⟩

theorem witness_EncodingTokensStoreOnlyAtPc :
    (after (exec .feW (fe (.int 1) 1020)) fun t => t.pc) = some 1024 ∧
    (after (exec (.feLit 0x2C#8) (fe (.int 1) 1024)) fun t => t.err) = some (.payloadTooLong 1025) := by decide

/-- `W,` on 6699, from the host and inside a call (whose payload is at most 219 bytes). -/
theorem witness_FieldEncodeRunMakesThePayload :
    hostWaits { fe (.int 6699) 0 with tmpl := [0x57#8, 0x2C#8] } = true ∧
    hostWaits { fe (.int 6699) 0 with tmpl := [0x57#8, 0x2C#8], act := .fieldEnc true } = true ∧
    (∀ k v, ([.int 6699] : List SlotVal)[k]? = some v → slotInVal (fe (.int 6699) 0) k = some v) ∧
    encodeAll t0.cfg [0x57#8, 0x2C#8] [.int 6699] = some [0x31#8, 0x41#8, 0x32#8, 0x42#8, 0x2C#8] ∧
    ([0x31#8, 0x41#8, 0x32#8, 0x42#8, 0x2C#8] : List Byte).length ≤ t0.cfg.payloadMax := by
  refine ⟨by decide, by decide, fun k v h => ?_, by decide, by decide⟩
  cases k with
  | zero => cases h; rfl
  | succ k => cases h

/-- A template of one token is decodable at every position. -/
theorem single_decodable (k : Byte) (i : Nat) : ¬ undecodableAt [k] i := by
  rintro ⟨_, _, _, _, _, _, h, _⟩
  cases h

/-- `BT` is undecodable at 0 and at nothing before it; `W` on no placeholder, on a TEXT placeholder, on one without a kind
and on an INT placeholder. -/
theorem witness_FieldDecodeStarts :
    decodeRefused t0 [0x42#8, 0x54#8] (.templateRefused 0) ∧ decodeChecks (fd [] [] .int) [0x57#8] ∧
    decodeRefused t0 [0x57#8] (.paramMismatch (.count 1 0)) ∧
    decodeRefused (fd [] [] .text) [0x57#8] (.paramMismatch (.slot 0 .w (some .text))) ∧
    decodeRefused { fd [] [] .text with slotOut := [none] } [0x57#8] (.paramMismatch (.slot 0 .w none)) :=
  ⟨.inl ⟨0, ⟨0x42#8, 0x54#8, 1, 0x54#8, rfl, rfl, rfl, rfl, by decide, rfl, rfl⟩, nofun, rfl⟩,
    ⟨single_decodable _, rfl, suits_one rfl rfl⟩,
    .inr ⟨single_decodable _, _, .inl ⟨by decide, rfl⟩, rfl⟩,
    .inr ⟨single_decodable _, _, .inr ⟨rfl, 0, .w, rfl, nofun, by decide, rfl⟩, rfl⟩,
    .inr ⟨single_decodable _, _, .inr ⟨rfl, 0, .w, rfl, nofun, nofun, rfl⟩, rfl⟩⟩

theorem witness_LiteralTokenIsMatched :
    Memory.readBytes (fd [0x2C#8] [0x2C#8] .int).pbuf 0 1 = some [0x2C#8] ∧ ([0x2C#8] : List Byte)[0]? = some 0x2C#8 ∧
    ([0x3B#8] : List Byte)[0]? = some 0x3B#8 ∧ 0x3B#8 ≠ 0x2C#8 ∧ (fd [0x2C#8] [] .int).plen ≤ (fd [0x2C#8] [] .int).pc := by
  decide

/-- The cursor at 1 of 5 bytes: `W` just fits, at 2 it does not; a literal is found, or is not; `T` before `W`. -/
theorem witness_FieldWidthRule :
    1 + 4 ≤ ([0x41#8, 0x42#8, 0x3B#8, 0x44#8, 0x45#8] : List Byte).length ∧
    ([0x41#8, 0x42#8, 0x3B#8, 0x44#8, 0x45#8] : List Byte).length < 2 + 4 ∧ isTyped 0x3B#8 = false ∧
    ([0x41#8, 0x42#8, 0x3B#8, 0x44#8, 0x45#8] : List Byte)[2]? = some 0x3B#8 ∧
    0x3A#8 ∉ ([0x41#8, 0x42#8, 0x3B#8, 0x44#8, 0x45#8] : List Byte) ∧ isTyped 0x57#8 = true ∧
    tokenWidth 0x57#8 + (([] : List Byte).map tokenWidth).sum ≤ 5 - 1 ∧
    5 - 2 < tokenWidth 0x57#8 + (([] : List Byte).map tokenWidth).sum := by decide

theorem witness_WFieldDecodes :
    (Memory.readBytes (fd [0x57#8] [0x46#8, 0x46#8, 0x46#8, 0x46#8] .int).pbuf 0 4 = some [0x46#8, 0x46#8, 0x46#8, 0x46#8] ∧
      slotOutKind (fd [0x57#8] [0x46#8, 0x46#8, 0x46#8, 0x46#8] .int) 0 = some .int ∧ upperHexDigit 15 = 0x46#8) ∧
    (upperHexDigit 3 = 0x33#8 ∧ ∀ n < 16, (0x61#8 : Byte) ≠ upperHexDigit n) ∧
    ([0x31#8, 0x41#8, 0x32#8] : List Byte).length < 0 + 4 := by decide

theorem witness_TFieldDecodes :
    (Memory.readBytes (fd [0x54#8] [0x41#8] .text).pbuf 0 1 = some [0x41#8] ∧ fieldWidth .t [] [0x41#8] 0 = .ok 1 ∧
      0x10#8 ∉ ([0x41#8] : List Byte) ∧ slotOutKind (fd [0x54#8] [0x41#8] .text) 0 = some .text) ∧
    slotOutKind (fd [0x54#8] [0x41#8] .char) 0 = some .char ∧
    (fieldWidth .t [] [] 0 = .ok 0 ∧ ([] : List Byte).length ≠ 1) ∧
    (fieldWidth .t [] [0x41#8, 0x10#8] 0 = .ok 2 ∧ ([0x41#8, 0x10#8] : List Byte)[1]? = some 0x10#8 ∧
      0x10#8 ∉ ([0x41#8, 0x10#8] : List Byte).take 1) := by
  refine ⟨⟨by decide, rfl, by decide, by decide⟩, by decide, ⟨rfl, by decide⟩, rfl, by decide, by decide⟩

/-- A marker at the end, a byte 63 after it, a byte 64 after it as the last pair, and another pair after it. -/
theorem witness_EscapePairDecodes :
    ([0x10#8] : List Byte).length ≤ 0 + 1 ∧
    (([0x10#8, 0x3F#8] : List Byte)[0 + 1]? = some 0x3F#8 ∧ (0x3F#8 : Byte).toNat < 64) ∧
    (([0x10#8, 0x40#8] : List Byte)[0 + 1]? = some 0x40#8 ∧ 64 ≤ (0x40#8 : Byte).toNat ∧
      0x10#8 ∉ ([0x10#8, 0x40#8] : List Byte).drop 2 ∧ slotOutKind (fd [0x54#8] [] .text) 0 = some .text) ∧
    (([0x10#8, 0x40#8, 0x41#8, 0x10#8] : List Byte).drop 2)[1]? = some 0x10#8 := by decide

/-- The last clause is the field `31 10 72` of spec/95_test_vectors.md. -/
theorem witness_BFieldDecodes :
    (fieldWidth .b [] [0x2D#8, 0x37#8] 0 = .ok 2 ∧ 0x10#8 ∉ ([0x2D#8, 0x37#8] : List Byte) ∧
      ([0x37#8] : List Byte).all isDigit = true ∧ slotOutKind (fd [0x42#8] [0x2D#8, 0x37#8] .int) 0 = some .int) ∧
    (([0x35#8] : List Byte).all isDigit = true ∧ decValue ([0x37#8] ++ [0x35#8]) = 75 ∧
      slotOutKind (fd [0x42#8] [0x37#8, 0x2E#8, 0x35#8] .real) 0 = some .real) ∧
    (∀ (neg : Bool) (ip f : List Byte), ip ≠ [] → ip.all isDigit = true → f.all isDigit = true →
      ([] : List Byte) ≠ (if neg then [0x2D#8] else []) ++ ip ++ (if f = [] then [] else 0x2E#8 :: f)) ∧
    0x2E#8 ∈ ([0x37#8, 0x2E#8, 0x35#8] : List Byte) ∧
    (decValue [0x32#8, 0x31#8, 0x34#8, 0x37#8, 0x34#8, 0x38#8, 0x33#8, 0x36#8, 0x34#8, 0x38#8] = 2147483648 ∧
      (2 ^ (t0.cfg.intBits - 1) : Int) ≤ 2147483648) ∧
    ((List.replicate 16 0x39#8).all isDigit = true ∧ t0.cfg.realMaxScale < (List.replicate 16 0x39#8).length) ∧
    (fieldWidth .b [] [0x31#8, 0x10#8, 0x72#8] 0 = .ok 3 ∧ ([0x31#8, 0x10#8, 0x72#8] : List Byte)[1]? = some 0x10#8 ∧
      0x10#8 ∉ ([0x31#8, 0x10#8, 0x72#8] : List Byte).take 1) := by
  refine ⟨⟨rfl, by decide, by decide, by decide⟩, by decide, fun neg ip f h => ?_, by decide, by decide, by decide,
    rfl, by decide⟩
  simp [h]

theorem witness_DateFieldsDecode :
    (Memory.readBytes (fd [0x51#8] (List.replicate 2 0x39#8) .datetime).pbuf 0 2 = some (List.replicate 2 0x39#8) ∧
      slotOutKind (fd [0x51#8] [] .datetime) 0 = some .datetime) ∧
    (layoutQ[2]? = some (.sep 0x2D#8) ∧ 0x2F#8 ≠ 0x2D#8 ∧ layoutQs[16]? = some .digit ∧
      (∀ n < 10, (0x3A#8 : Byte) ≠ decimalDigit n) ∧ decimalDigit 9 = 0x39#8) := by decide

theorem witness_FieldDecodeEnds :
    (hostWaits (fd [] [0x58#8] .int) = true ∧ (fd [] [0x58#8] .int).tmpl.length ≤ (fd [] [0x58#8] .int).tc ∧
      (fd [] [0x58#8] .int).pc ≠ (fd [] [0x58#8] .int).plen) ∧
    (fd [] [] .int).pc = (fd [] [] .int).plen ∧ { fd [] [] .int with act := .fieldDec true }.act = .fieldDec true := by
  decide

theorem witness_DecodingTokensStoreOnlyInTheirSlot :
    (after (exec .fdW (fd [0x57#8] [0x30#8, 0x30#8, 0x30#8, 0x31#8] .int)) fun t => t.sc) = some 1 ∧
    (after (exec (.fdLit 0x2C#8) (fd [0x2C#8] [] .int)) fun t => t.act) = some .idle := by decide

/-- An escaped `41 09` for a TEXT and for a CHAR (two bytes are no CHAR), an escaped field that is no numeral, and a
marker with nothing after it; the first marker of `41 10 49` is at 1, where `FD.T` leaves the field. -/
theorem witness_EscapeStepsComputeUnescape :
    (after (exec .fdT (fd [0x54#8] [0x41#8, 0x10#8, 0x49#8] .text)) fun t => (t.act, t.fldRaw, t.fldJ, t.fldU)) =
      some (.unescape false .t, [0x41#8, 0x10#8, 0x49#8], 1, [0x41#8]) ∧
    0x10#8 ∉ ([0x41#8, 0x10#8, 0x49#8] : List Byte).take 1 ∧
    (unescape 0 [0x41#8, 0x10#8, 0x49#8]).toOption = some [0x41#8, 0x09#8] ∧
    slotOutKind (fd [0x54#8] [] .text) 0 = some .text ∧
    valueOf t0.cfg .t .text [0x41#8, 0x09#8] = some (.text [0x41#8, 0x09#8]) ∧
    slotOutKind (fd [0x54#8] [] .char) 0 = some .char ∧ valueOf t0.cfg .t .char [0x41#8, 0x09#8] = none ∧
    valueOf t0.cfg .b .int [0x41#8, 0x09#8] = none ∧ unescape 0 [0x10#8] = .error (0, none) := by
  refine ⟨by decide, by decide, by decide, by decide, by decide, by decide, by decide, by decide, rfl⟩

theorem witness_FieldsRoundTrip :
    bytesW (.int 65535) = some [0x46#8, 0x46#8, 0x46#8, 0x46#8] ∧ bytesB t0.cfg (.real 0 2) = some [0x30#8, 0x2E#8, 0x30#8, 0x30#8] ∧
    (bytesQ (.datetime ⟨99, 99, 2099, 99, 99, 0⟩)).isSome = true ∧
    (bytesQs (.datetime ⟨0, 0, 0, 0, 0, 99⟩)).isSome = true := by decide

/-- An idle machine whose payload is `n` bytes. -/
def withPayloadOf (n : Nat) : State :=
  { t0 with pbuf := Memory.writeBytes [] 0 (List.replicate n 0x41#8), plen := (List.replicate n 0x41#8).length }

theorem withPayloadOf_reads (n : Nat) (h : n ≤ 1024) :
    Memory.readBytes (withPayloadOf n).pbuf 0 (withPayloadOf n).plen = some (List.replicate n 0x41#8) :=
  Memory.readBytes_writeBytes [] 0 _ (by simpa [bufSz] using h)

theorem witness_HostFrameIsAssembled :
    Memory.readBytes (withPayloadOf 219).pbuf 0 (withPayloadOf 219).plen = some (List.replicate 219 0x41#8) ∧
    (List.replicate 219 0x41#8).length ≤ (withPayloadOf 219).cfg.payloadMax ∧
    Memory.readBytes (withPayloadOf 220).pbuf 0 (withPayloadOf 220).plen = some (List.replicate 220 0x41#8) ∧
    (withPayloadOf 220).cfg.payloadMax < (List.replicate 220 0x41#8).length :=
  ⟨withPayloadOf_reads 219 (by decide), by rw [List.length_replicate]; decide, withPayloadOf_reads 220 (by decide),
    by rw [List.length_replicate]; decide⟩

theorem witness_DeviceFrameIsAssembled :
    Memory.readBytes (withPayloadOf 212).pbuf 0 (withPayloadOf 212).plen = some (List.replicate 212 0x41#8) ∧
    (List.replicate 212 0x41#8).length + 7 ≤ (withPayloadOf 212).cfg.payloadMax ∧
    Memory.readBytes (withPayloadOf 213).pbuf 0 (withPayloadOf 213).plen = some (List.replicate 213 0x41#8) ∧
    (withPayloadOf 213).cfg.payloadMax < (List.replicate 213 0x41#8).length + 7 :=
  ⟨withPayloadOf_reads 212 (by decide), by rw [List.length_replicate]; decide, withPayloadOf_reads 213 (by decide),
    by rw [List.length_replicate]; decide⟩

/-- The free payload is the host frame's or the device frame's; both sides of the bound can be met by a length. -/
theorem witness_FrameEncodeRunsOnAFreePayload :
    ((Instr.frmEncDevice = .frmEncHost ∧ some t0.opnd.status = none) ∨
      (Instr.frmEncDevice = .frmEncDevice ∧ some t0.opnd.status = some t0.opnd.status)) ∧
    lengthPayload 212 (some t0.opnd.status) ≤ t0.cfg.payloadMax ∧
    t0.cfg.payloadMax < lengthPayload 213 (some t0.opnd.status) := by decide

theorem witness_FrameByteCount : lengthPayload 219 none ≤ 219 ∧ lengthPayload 212 (some DeviceStatus.zero) ≤ 219 := by
  decide

theorem witness_FrameDecodeStartsAndFirstByteActs :
    t0.cfg.busyLimit = none ∧
    (1 + 1 ≤ 2 ∧ { t0 with cfg := { t0.cfg with busyLimit := some 2 }, busycnt := 1 }.cfg.busyLimit = some 2) ∧ 2 < 2 + 1 := by
  decide

theorem witness_HeaderIsReadAndLengthChecked :
    (hostWaits (rx .hdr 3 0 false [.byte 0x24#8]) = true ∧ (rx .hdr 3 0 false [.byte 0x24#8]).rxcnt = 3) ∧
    (rx .hdr 2 0x24#8 false [.byte 0x20#8]).rxcnt = 2 ∧
    (36 ≤ (rx .hdr 1 0x24#8 false [.byte 0x21#8]).rxlen.toNat ∧ 43 ≤ (rx .hdr 1 0x2B#8 true [.byte 0x21#8]).rxlen.toNat) ∧
    ((rx .hdr 1 0x23#8 false [.byte 0x21#8]).rxlen.toNat < 36 ∧ (rx .hdr 1 0x2A#8 true [.byte 0x21#8]).rxlen.toNat < 43) := by
  decide

/-- PAYLOAD ends after no byte, with and without a status; it holds one of one; STATUS and BCC inside and at the end. -/
theorem witness_DataBytesAreStored :
    ((rx .payload 0 0x24#8 false []).rxs = .payload ∧ (rx .payload 0 0x24#8 false []).rxcnt = 0 ∧
      hostWaits (rx .payload 0 0x2B#8 true []) = true) ∧
    hostWaits (rx .payload 1 0x25#8 false [.byte 0x41#8]) = true ∧
    0 < (rx .payload 1 0x25#8 false [.byte 0x41#8]).rxcnt ∧
    2 ≤ (rx .status 6 0x2B#8 true [.byte 0x80#8]).rxcnt ∧ (rx .status 1 0x2B#8 true [.byte 0xBA#8]).rxcnt = 1 ∧
    2 ≤ (rx .bcc 4 0x24#8 false [.byte 0x30#8]).rxcnt ∧ (rx .bcc 1 0x24#8 false [.byte 0x3A#8]).rxcnt = 1 := by decide

theorem witness_StructuralBytesAreRequired :
    hostWaits (rx .fterm 1 0x24#8 false [.byte 0x04#8]) = true ∧
    ((rx .fterm 1 0x24#8 false [.byte 0x04#8]).rxs, 0x03#8, 4 + 0 + 5) ∈
      [(Rxs.stmark, 0x04#8, 4 + 0), (.pterm, 0x05#8, 4), (.fterm, 0x03#8, 4 + 5)] ∧ 0x04#8 ≠ 0x03#8 := by decide

theorem witness_ChannelWaitsAndFails :
    (hostWaits (rx .waitStart 1 0 false []) = true ∧ (rx .waitStart 1 0 false []).rx = []) ∧
    ((rx .payload 1 0x25#8 false [.fail]).rxs = .payload ∧ (rx .payload 1 0x25#8 false [.fail]).rx = [.fail]) := by decide

/-- In CHECK with the source's example header in FBUF and the digits right, then wrong; and in DONE. -/
theorem witness_FrameIsCheckedThenAccepted :
    Memory.readBytes { rx .check 0 0x24#8 false [] with fbuf := Memory.writeBytes [] 0 hdrEx.toList }.fbuf 0 4 =
      some hdrEx.toList ∧
    rxN (rx .check 0 0x24#8 false []) = 0 ∧
    bccRender (bccSum .block hdrEx.toList [] none) = ⟨0x30#8, 0x30#8, 0x36#8, 0x3A#8⟩ ∧
    bccRender (bccSum .block hdrEx.toList [] none) ≠ ⟨0x30#8, 0x30#8, 0x37#8, 0x3A#8⟩ ∧
    Memory.readBytes (rx .done 0 0x24#8 false []).pbuf 0 (rx .done 0 0x24#8 false []).plen = some [] ∧
    { rx .done 0 0x2B#8 true [] with act := .frameDec true }.expst = true := by decide

theorem witness_FrameRoundTrip :
    hostWaits (rx .waitStart 1 0 true []) = true ∧ (rx .waitStart 1 0 true []).expst = (some DeviceStatus.zero).isSome ∧
    lengthPayload 212 (some DeviceStatus.zero) ≤ 219 ∧
    { rx .waitStart 1 0 false [] with rx := (frameBytes .block 0x20#8 0x21#8 [] none).map ChanAnswer.byte }.rx =
      [.byte 0x01#8, .byte 0x24#8, .byte 0x20#8, .byte 0x21#8, .byte 0x05#8, .byte 0x30#8, .byte 0x30#8, .byte 0x36#8,
        .byte 0x3A#8, .byte 0x03#8] := by decide

theorem witness_NamedFlagsReadTheirBit :
    (flagRows[21]? = some .stNonFiscalReceiptOpen ∧ allFlags[21]? = some .nonFiscalReceiptOpen ∧
      { t0 with srv := true }.srv = true) ∧ t0.srv = false ∧ allFlags[19]? = some .fiscalized := by decide

theorem witness_GenericFlagFormIsTheNamedRow :
    flagRows[(21#5).toNat]? = some .stNonFiscalReceiptOpen ∧ (21#5).toNat < 22 ∧ 22 ≤ (22#5).toNat ∧
    { t0 with srv := true }.srv = true := by decide

theorem witness_AggregatesAreTheirFlags : { t0 with srv := true }.srv = true ∧ t0.srv = false := by decide

theorem witness_ExampleBlockHasNoError : exMap.admissible = true := by decide

theorem witness_CallLooksUpItsCommand :
    tableLookup t0.table [0x4D#8, 0x33#8, 0x33#8] = some ⟨33#8, [], []⟩ ∧ tableLookup t0.table [] = none := by decide

/-- Each phase of a round; the host format of the descriptor is empty, or `W` with no slot. -/
theorem witness_CallSendsOneFrameThenReads :
    hostWaits (ses .callRound 0 none) = true ∧ encodeChecks (ses .callEncode 0 none) [] ∧
    encodeRefused { ses .callEncode 0 none with desc := ⟨33#8, [0x57#8], []⟩ } [0x57#8] (.paramMismatch (.count 1 0)) ∧
    (([] : List Byte).length ≤ { ses (.fieldEnc true) 0 none with pc := 219 }.tc ∧
      { ses (.fieldEnc true) 0 none with pc := 219 }.pc ≤ t0.cfg.payloadMax) ∧
    t0.cfg.payloadMax < { ses (.fieldEnc true) 0 none with pc := 220 }.pc ∧
    Memory.readBytes (ses .callFrame 0 none).pbuf 0 (ses .callFrame 0 none).plen = some [] ∧
    Memory.readBytes (ses .callWrite 0 none).fbuf 0 (ses .callWrite 0 none).flen = some [] :=
  ⟨by decide, ⟨rfl, nofun⟩, ⟨_, .inl ⟨by decide, rfl⟩, rfl⟩, by decide⟩

/-- The retry predicate on with no limit, with limit 1 reached, with limit 0 passed; off with and without an error. -/
theorem witness_ResponseStatusDecidesTheCall :
    (predHolds (ses .callStatus 0x88#8 none).cfg.retryPred (ses .callStatus 0x88#8 none).sr = true ∧
      (ses .callStatus 0x88#8 (some 1)).retrycnt + 1 ≤ 1) ∧
    0 < (ses .callStatus 0x88#8 (some 0)).retrycnt + 1 ∧
    (predHolds (ses .callStatus 0x81#8 none).cfg.retryPred (ses .callStatus 0x81#8 none).sr = false ∧
      hasErr (ses .callStatus 0x81#8 none).cfg.statusMap (ses .callStatus 0x81#8 none).sr = true) ∧
    (hasErr (ses .callStatus 0x80#8 none).cfg.statusMap (ses .callStatus 0x80#8 none).sr = false ∧
      hostWaits (ses .callStatus 0x80#8 none) = true ∧ decodeChecks (ses .callStatus 0x80#8 none) [] ∧
      decodeRefused (ses .callStatus 0x80#8 none) [0x57#8] (.paramMismatch (.count 1 0))) :=
  ⟨by decide, by decide, by decide, by decide, by decide, ⟨nofun, rfl, nofun⟩,
    .inr ⟨single_decodable _, _, .inl ⟨by decide, rfl⟩, rfl⟩⟩

/-- A resting machine is sound (EXMAP is admissible), and `SES.CALL` moves it from Decoded to Idle. -/
theorem witness_SoundState : SoundState { t0 with ses := .decoded, port := [⟨false, req 0xB#4 0⟩] } where
  pbufWf := Memory.nil_wf
  fbufWf := Memory.nil_wf
  midLow := by decide
  midHigh := by decide
  slotInLen := rfl
  slotOutLen := rfl
  inCntLe := Nat.zero_le _
  outCntLe := Nat.zero_le _
  rxcntLe := Nat.zero_le _
  plenLe := Nat.zero_le _
  flenLe := Nat.zero_le _
  tcLe := Nat.le_refl _
  pcLe := Nat.zero_le _
  scLe := Nat.zero_le _
  mapOk := by decide
  legacyOk := rfl
  payloadMaxLe := Nat.le_refl _
  idQuiet := nofun
  payloadCovers := fun a h => absurd h (Nat.not_lt_zero a)
  rxQuiet := fun _ => .inl rfl
  ctl := trivial
  ses := .inr (.inl rfl)

theorem witness_SequencerMovesAsTheDiagram :
    after (step { t0 with ses := .decoded, port := [⟨false, req 0xB#4 0⟩] }) (fun t => t.ses) = some .failed := by decide

theorem witness_RaisingAnErrorKeepsAndSpoils :
    (Activity.callStatus).inCall = true ∧ (Activity.frameDec false).inCall = false := by decide

theorem witness_IllegalRequestsChangeOnlyErr :
    ((port (req 0xC#4 0)).act = .idle ∧ (port (req 0xC#4 0)).port = [⟨false, req 0xC#4 0⟩] ∧ 0xC#4 ≤ 0xC#4) ∧
    22 ≤ (22#5).toNat ∧ { t0 with act := .callRound, port := [⟨true, req 0x1#4 0⟩] }.act ≠ .idle := by decide

/-- The default codec on `A`, on the byte 255 and on a character above 255, and a decoded TEXT as the host reads it. -/
theorem test_textCodec :
    hostTextSlot t0 [0x41, 255] = some (.text [0x41#8, 0xFF#8]) ∧ hostTextSlot t0 [256] = none ∧
    hostReadsText { t0 with outOk := true, outCnt := 1, slotOut := [some ⟨.text, some (.text [0x41#8])⟩] } 0 =
      some [0x41] := by decide

theorem witness_ResetValues :
    (port .reset).act = .idle ∧ (port .reset).port = [⟨false, .reset⟩] := by decide

theorem witness_HostWritesLandBetweenOperations :
    (31 < (port (.writeSlotIn 31 (.int 0))).cfg.nslot ∧ 32 ≤ (port (.writeInCnt 32)).cfg.nslot ∧
      31 < (port (.writeSlotOutKind 31 .int)).cfg.nslot ∧ 32 ≤ (port (.writeOutCnt 32)).cfg.nslot ∧
      exMap.admissible = true ∧ (port (.buildTable [])).tableBuilt = false) ∧
    ((port (.writeSlotIn 32 (.int 0))).cfg.nslot ≤ 32 ∧ (port (.writeInCnt 33)).cfg.nslot < 33 ∧
      { exMap with errSyntax := ⟨0, 7⟩ }.admissible = false ∧ ([0x43#8] : List Byte) ≠ [] ∧
      { port (.buildTable []) with tableBuilt := true }.tableBuilt = true) ∧
    { t0 with act := .callRound, port := [⟨true, .reset⟩] }.act ≠ .idle := by decide

theorem witness_InstructionsLeaveTheSpecialRegisters :
    (after (exec .feRun t0) fun t => t.act) = some (.fieldEnc false) := by decide

/-- DONE with EXPST = 1 writes SR; the id is taken; the frame is written. -/
theorem witness_WritersAreNamed :
    (after (step { rx .done 0 0x2B#8 true [] with rxSt := ⟨1, 2, 3, 4, 5, 6⟩ }) fun t => (t.sr, t.srv)) =
      some (⟨1, 2, 3, 4, 5, 6⟩, true) ∧
    (after (step (ses .callNextId 0 none)) fun t => t.mid) = some 33#8 ∧
    (after (step { ses .callWrite 0 none with fbuf := Memory.writeBytes [] 0 [0x01#8], flen := 1 }) fun t => t.tx) =
      some [0x01#8] := by decide

end Sys2Proof.Tests
end

section
/-! The length of a frame and its length byte (spec/30_encoding.md R63, R64). -/

namespace Sys2Proof

@[simp] theorem Quad.length_toList (q : Quad) : q.toList.length = 4 := rfl

@[simp] theorem DeviceStatus.length_toList (st : DeviceStatus) : st.toList.length = 6 := rfl

end Sys2Proof

namespace Sys2Proof.Machine

@[simp] theorem lengthPayload_none (n : Nat) : lengthPayload n none = n := rfl

@[simp] theorem lengthPayload_some (n : Nat) (b : DeviceStatus) : lengthPayload n (some b) = n + 7 := rfl

/-- Both forms of a frame: the marker and the block of a device frame are counted in its length payload. -/
theorem length_frameBytes (c : Config.Coverage) (id num : Byte) (p : List Byte) (st : Option DeviceStatus) :
    (frameBytes c id num p st).length = lengthPayload p.length st + 10 := by
  cases st with
  | none => simp [frameBytes]
  | some b => simp [frameBytes]

/-- The length byte is `36 + P`, taken modulo 256 by its width. -/
theorem frameBytes_lengthByte (c : Config.Coverage) (id num : Byte) (p : List Byte) (st : Option DeviceStatus) :
    (frameBytes c id num p st)[1]? = some (BitVec.ofNat 8 (36 + lengthPayload p.length st)) := by
  cases st with
  | none => rfl
  | some b => rfl

/-- `LEN` holds `36 + P` while `P` is at most 219: the sum stays below 256. -/
theorem toNat_lengthByte {n : Nat} (h : n ≤ 219) : (BitVec.ofNat 8 (36 + n)).toNat = 36 + n :=
  Nat.mod_eq_of_lt (by omega)

/-- Settles O35: the frame's length and its length byte are each read off the frame, and both are `P` plus a constant. -/
theorem frameByteCount : Obligations.FrameByteCount := by
  intro c id num p st hP
  have hlen := length_frameBytes c id num p st
  have hbyte := toNat_lengthByte hP
  exact ⟨_, frameBytes_lengthByte c id num p st, hbyte, hlen, by omega, by omega, by omega⟩

end Sys2Proof.Machine
end

section
/-! CHK: the digits `BCC.RENDER` gives and the value `BCC.SUM` computes (spec/40_checksum.md R90, R91, R94). -/

namespace Sys2Proof.Machine

theorem exec_bccRender (s : State) :
    exec .bccRender s = .next { s with err := .none, result := .digits (bccRender s.opnd.s) } := rfl

theorem exec_bccSum (s : State) :
    exec .bccSum s = .next { s with
      err := .none, result := .sum (bccSum s.cfg.coverage s.opnd.h.toList s.opnd.p s.opnd.st) } := rfl

/-- The sum of R11 does not wrap: every digit is in 0x30..0x3F. -/
@[simp] theorem toNat_bccDigit (n : BitVec 4) : (bccDigit n).toNat = 0x30 + n.toNat := by
  have hn : n.toNat < 16 := n.isLt
  simp only [bccDigit, BitVec.toNat_add, BitVec.toNat_setWidth, BitVec.toNat_ofNat]
  omega

/-- The nibbles of R91 as quotients and remainders; the high one needs no remainder, since the value is below 65536. -/
theorem toNat_bccRender (x : BitVec 16) :
    (bccRender x).b0.toNat = 0x30 + x.toNat / 4096 ∧ (bccRender x).b1.toNat = 0x30 + x.toNat / 256 % 16 ∧
    (bccRender x).b2.toNat = 0x30 + x.toNat / 16 % 16 ∧ (bccRender x).b3.toNat = 0x30 + x.toNat % 16 := by
  have hx : x.toNat < 65536 := x.isLt
  simp only [bccRender, toNat_bccDigit, BitVec.extractLsb_toNat, Nat.shiftRight_eq_div_pow, true_and, Nat.reduceSub,
    Nat.reduceAdd, Nat.reducePow]
  omega

/-- The four digits determine the four nibbles, and those determine the value. -/
theorem bccRender_injective : Function.Injective bccRender := by
  intro x y h
  obtain ⟨hx0, hx1, hx2, hx3⟩ := toNat_bccRender x
  obtain ⟨hy0, hy1, hy2, hy3⟩ := toNat_bccRender y
  rw [h] at hx0 hx1 hx2 hx3
  apply BitVec.eq_of_toNat_eq
  omega

/-- Settles O7: the digits are read off nibble by nibble, and the nibbles give the value back. -/
theorem renderedDigits : Obligations.RenderedDigits :=
  ⟨fun s => ⟨_, exec_bccRender s, toNat_bccRender s.opnd.s⟩, fun _ _ h => bccRender_injective h⟩

/-- The width of the result is the reduction modulo 65536 of R90. -/
theorem toNat_bccSum (c : Config.Coverage) (h p : List Byte) (st : Option DeviceStatus) :
    (bccSum c h p st).toNat = (4 + byteSum h + byteSum p + bccCov c st) % 65536 := rfl

@[simp] theorem bccCov_host (c : Config.Coverage) : bccCov c none = 0 := rfl

@[simp] theorem bccCov_block (st : DeviceStatus) : bccCov .block (some st) = byteSum st.toList := rfl

@[simp] theorem bccCov_none (st : DeviceStatus) : bccCov .none (some st) = 0 := rfl

/-- STMARK is the byte 4. -/
@[simp] theorem bccCov_markerAndBlock (st : DeviceStatus) :
    bccCov .markerAndBlock (some st) = 4 + byteSum st.toList := rfl

theorem Operands.st_of_host {o : Operands} (h : o.hasStatus = false) : o.st = none := by simp [Operands.st, h]

theorem Operands.st_of_device {o : Operands} (h : o.hasStatus = true) : o.st = some o.status := by
  simp [Operands.st, h]

/-- Settles O6: the value is the seeded sum of R90, its last summand the coverage of R94 for a host frame and for a
device frame under each of the three settings. -/
theorem checksumValue : Obligations.ChecksumValue := by
  intro s
  refine ⟨_, exec_bccSum s, ?_⟩
  rw [toNat_bccSum]
  cases hst : s.opnd.hasStatus with
  | false => simp [Operands.st_of_host hst]
  | true => cases s.cfg.coverage <;> simp [Operands.st_of_device hst]

end Sys2Proof.Machine
end

section
/-! FLD, encoding: one rule per outcome of a typed token (spec/41_field_codec.md R102), and the digits of `FE.W`
(R104). -/

namespace Sys2Proof.Machine

open Sys2Proof.Safety

theorem exec_feW (s : State) : exec .feW s = feTyped .w bytesW s := rfl

theorem exec_feB (s : State) : exec .feB s = feTyped .b (bytesB s.cfg) s := rfl

theorem exec_feT (s : State) : exec .feT s = feTyped .t bytesT s := rfl

theorem exec_feQ (s : State) : exec .feQ s = feTyped .q bytesQ s := rfl

theorem exec_feQs (s : State) : exec .feQs s = feTyped .qs bytesQs s := rfl

/-- Bytes that fit are written at PC, and PC and TC move past them (R102). -/
theorem emit_of_fits {bs : List Byte} {s : State} (h : s.pc + bs.length ≤ 1024) :
    emit bs s = .next { s with
      pbuf := Memory.writeBytes s.pbuf s.pc bs, pc := s.pc + bs.length, tc := s.tc + 1 } :=
  if_neg (Nat.not_lt.2 h)

section
variable {code : FieldCode} {f : SlotVal → Option (List Byte)} {s : State} {v : SlotVal}

theorem feTyped_of_fits {bs : List Byte} (hv : slotInVal s s.sc = some v) (ha : accepts code v.kind = true)
    (hf : f v = some bs) (hfit : s.pc + bs.length ≤ 1024) :
    feTyped code f s = .next { s with
      pbuf := Memory.writeBytes s.pbuf s.pc bs, pc := s.pc + bs.length, tc := s.tc + 1, sc := s.sc + 1 } := by
  simp only [feTyped, hv, ha, hf, if_true]
  exact emit_of_fits hfit

theorem feTyped_of_no_text (hv : slotInVal s s.sc = some v) (ha : accepts code v.kind = true) (hf : f v = none) :
    feTyped code f s = .next (raised (.encodeRange s.sc code v) { s with sc := s.sc + 1 }) := by
  simp only [feTyped, hv, ha, hf, if_true, raise]

end

/-- The model's digit and the statement's digit, over the sixteen nibbles (R71). -/
theorem hexU_eq_upperHexDigit : ∀ n : BitVec 4, hexU n = upperHexDigit n.toNat := by decide

/-- The nibbles of R104 as quotients and remainders; the high one needs no remainder, since `v` is below 65536. -/
theorem hex4_ofNat {v : Nat} (hv : v ≤ 65535) :
    hex4 (BitVec.ofNat 16 v) =
      [upperHexDigit (v / 4096), upperHexDigit (v / 256 % 16), upperHexDigit (v / 16 % 16), upperHexDigit (v % 16)] := by
  have hmod : v % 65536 = v := Nat.mod_eq_of_lt (by omega)
  have htop : v / 4096 % 16 = v / 4096 := Nat.mod_eq_of_lt (by omega)
  simp [hex4, hexU_eq_upperHexDigit, Nat.shiftRight_eq_div_pow, hmod, htop]

theorem bytesW_of_range {v : Nat} (hv : v ≤ 65535) :
    bytesW (.int v) = some
      [upperHexDigit (v / 4096), upperHexDigit (v / 256 % 16), upperHexDigit (v / 16 % 16), upperHexDigit (v % 16)] := by
  rw [← hex4_ofNat hv]
  exact if_pos (by omega)

theorem bytesW_of_outside {v : Int} (hv : v < 0 ∨ 65535 < v) : bytesW (.int v) = none :=
  if_neg (by omega)

/-- Settles O12: a value in range has the four digits of its nibbles, any other has no text. -/
theorem wTokenIsFourHexDigits : Obligations.WTokenIsFourHexDigits := by
  refine fun s => ⟨fun v hv hle hfit => ?_, fun v hv hout => ?_⟩
  · rw [exec_feW]
    exact feTyped_of_fits hv rfl (bytesW_of_range hle) hfit
  · rw [exec_feW]
    exact feTyped_of_no_text hv rfl (bytesW_of_outside hout)

end Sys2Proof.Machine
end

section
/-! FLD, encoding: the decimal digit strings and the numerals of `FE.B` (spec/41_field_codec.md R105). -/

namespace Sys2Proof.Machine

theorem toNat_digit {n : Nat} (h : n < 10) : (digit n).toNat = 0x30 + n :=
  Nat.mod_eq_of_lt (by omega)

theorem digitVal_digit {n : Nat} (h : n < 10) : digitVal (digit n) = n := by
  rw [digitVal, toNat_digit h, Nat.add_sub_cancel_left]

theorem isDigit_digit {n : Nat} (h : n < 10) : isDigit (digit n) = true := by
  rw [isDigit, toNat_digit h, decide_eq_true_iff]
  omega

theorem digit_ne_zero {n : Nat} (h : n < 10) (h0 : n ≠ 0) : digit n ≠ 0x30#8 := by
  intro heq
  have hn : (digit n).toNat = 0x30 := by rw [heq]; rfl
  rw [toNat_digit h] at hn
  omega

/-- A last digit adds its value to ten times what the others spell (R114). -/
theorem decValue_append_digit (ds : List Byte) {n : Nat} (h : n < 10) :
    decValue (ds ++ [digit n]) = decValue ds * 10 + n := by
  simp [decValue, List.foldl_append, digitVal_digit h]

/-- With enough fuel for `n` the digits spell `n`. -/
theorem decValue_decFuel {f n : Nat} (h : n < 2 ^ f) : decValue (decFuel f n) = n := by
  induction f generalizing n with
  | zero =>
    obtain rfl : n = 0 := by omega
    rfl
  | succ f ih =>
    rw [decFuel]
    split
    · exact (decValue_append_digit [] ‹n < 10›).trans (by simp [decValue])
    · rw [decValue_append_digit _ (by omega), ih (by rw [pow_succ] at h; omega)]
      omega

theorem all_isDigit_decFuel (f n : Nat) : (decFuel f n).all isDigit = true := by
  induction f generalizing n with
  | zero => rfl
  | succ f ih =>
    rw [decFuel]
    split
    · simp [isDigit_digit ‹n < 10›]
    · simp [List.all_append, ih, isDigit_digit (Nat.mod_lt n (by decide : 10 > 0))]

/-- The first digit of a number that is not 0 is its leading digit, and that is not 0. -/
theorem decFuel_leading {f n : Nat} (h : n < 2 ^ f) (h0 : n ≠ 0) :
    ∃ d ds, d < 10 ∧ d ≠ 0 ∧ decFuel f n = digit d :: ds := by
  induction f generalizing n with
  | zero => omega
  | succ f ih =>
    rw [decFuel]
    split
    · exact ⟨n, [], ‹n < 10›, h0, rfl⟩
    · obtain ⟨d, ds, hd, hd0, heq⟩ := ih (n := n / 10) (by rw [pow_succ] at h; omega) (by omega)
      exact ⟨d, ds ++ [digit (n % 10)], hd, hd0, by rw [heq, List.cons_append]⟩

theorem decValue_dec (n : Nat) : decValue (dec n) = n := decValue_decFuel Nat.lt_log2_self

theorem all_isDigit_dec (n : Nat) : (dec n).all isDigit = true := all_isDigit_decFuel _ n

theorem dec_zero : dec 0 = [0x30#8] := rfl

theorem dec_leading {n : Nat} (h0 : n ≠ 0) : ∃ d ds, d < 10 ∧ d ≠ 0 ∧ dec n = digit d :: ds :=
  decFuel_leading Nat.lt_log2_self h0

theorem dec_ne_nil (n : Nat) : dec n ≠ [] := by
  rcases eq_or_ne n 0 with rfl | h0
  · simp [dec_zero]
  · obtain ⟨d, ds, -, -, heq⟩ := dec_leading h0
    simp [heq]

/-- No leading zero (R105). -/
theorem head?_dec_ne {n : Nat} (h0 : n ≠ 0) : (dec n).head? ≠ some 0x30#8 := by
  obtain ⟨d, ds, hd, hd0, heq⟩ := dec_leading h0
  simpa [heq] using digit_ne_zero hd hd0

@[simp] theorem length_decPad (x d : Nat) : (decPad x d).length = d := by
  induction d generalizing x with
  | zero => rfl
  | succ d ih => simp [decPad, ih]

theorem all_isDigit_decPad (x d : Nat) : (decPad x d).all isDigit = true := by
  induction d generalizing x with
  | zero => rfl
  | succ d ih => simp [decPad, List.all_append, ih, isDigit_digit (Nat.mod_lt x (by decide : 10 > 0))]

/-- `decpad` keeps the last `d` digits of the number. -/
theorem decValue_decPad (x d : Nat) : decValue (decPad x d) = x % 10 ^ d := by
  induction d generalizing x with
  | zero => simp [decPad, decValue, Nat.mod_one]
  | succ d ih =>
    calc decValue (decPad x (d + 1))
      _ = x / 10 % 10 ^ d * 10 + x % 10 := by rw [decPad, decValue_append_digit _ (by omega), ih]
      _ = x % 10 ^ (d + 1) := by rw [pow_succ', Nat.mod_mul]; omega

theorem inBounds_iff {n : Nat} {v : Int} :
    inBounds n v = true ↔ -(2 ^ (n - 1) : Int) ≤ v ∧ v < (2 ^ (n - 1) : Int) := decide_eq_true_iff

section
variable {c : Config.Configuration} {v m : Int} {d : Nat}

theorem bytesB_int (hlo : -(2 ^ (c.intBits - 1) : Int) ≤ v) (hhi : v < (2 ^ (c.intBits - 1) : Int)) :
    bytesB c (.int v) = some ((if v < 0 then [0x2D#8] else []) ++ dec v.natAbs) :=
  if_pos (inBounds_iff.2 ⟨hlo, hhi⟩)

theorem bytesB_real (hlo : -(2 ^ (c.realMantBits - 1) : Int) ≤ m) (hhi : m < (2 ^ (c.realMantBits - 1) : Int))
    (hd : d ≤ c.realMaxScale) :
    bytesB c (.real m d) = some ((if m < 0 then [0x2D#8] else []) ++ dec (m.natAbs / 10 ^ d) ++
      (if d = 0 then [] else [0x2E#8] ++ decPad (m.natAbs % 10 ^ d) d)) :=
  if_pos ⟨inBounds_iff.2 ⟨hlo, hhi⟩, hd⟩

theorem bytesB_int_of_outside (h : v < -(2 ^ (c.intBits - 1) : Int) ∨ (2 ^ (c.intBits - 1) : Int) ≤ v) :
    bytesB c (.int v) = none :=
  if_neg fun hin => by
    have := inBounds_iff.1 hin
    omega

theorem bytesB_real_of_outside (h : c.realMaxScale < d ∨ m < -(2 ^ (c.realMantBits - 1) : Int) ∨
    (2 ^ (c.realMantBits - 1) : Int) ≤ m) : bytesB c (.real m d) = none :=
  if_neg fun ⟨hin, hd⟩ => by
    have := inBounds_iff.1 hin
    omega

end

/-- Settles O13: a value within its bounds has the numeral of R105, any other has no text; the digit strings are
characterised by what they spell. -/
theorem bTokenIsTheNumeral : Obligations.BTokenIsTheNumeral := by
  refine ⟨fun s => ⟨?_, ?_, ?_, ?_⟩,
    fun n => ⟨decValue_dec n, all_isDigit_dec n, dec_ne_nil n, head?_dec_ne⟩, dec_zero,
    fun x d => ⟨length_decPad x d, all_isDigit_decPad x d, decValue_decPad x d⟩⟩
  · rintro v bs hv hlo hhi rfl hfit
    rw [exec_feB]
    exact feTyped_of_fits hv rfl (bytesB_int hlo hhi) hfit
  · rintro m d bs hv hd hlo hhi rfl hfit
    rw [exec_feB]
    exact feTyped_of_fits hv rfl (bytesB_real hlo hhi hd) hfit
  · intro v hv hout
    rw [exec_feB]
    exact feTyped_of_no_text hv rfl (bytesB_int_of_outside hout)
  · intro m d hv hout
    rw [exec_feB]
    exact feTyped_of_no_text hv rfl (bytesB_real_of_outside hout)

end Sys2Proof.Machine
end

section
/-! FLD: the escape pair and its inverse (spec/41_field_codec.md R106, R116, R121). -/

namespace Sys2Proof.Machine

theorem escape_eq_flatMap (txt : List Byte) :
    escape txt = txt.flatMap fun b => if b.toNat < 32 then [0x10#8, b + 64#8] else [b] := by
  induction txt with
  | nil => rfl
  | cons b txt ih => rw [escape, ih, List.flatMap_cons]; rfl

/-- Settles O14: a TEXT and a one-byte CHAR have the escaped text as their bytes. -/
theorem tTokenIsEscaped : Obligations.TTokenIsEscaped := by
  intro s txt bs hv hbs hfit
  rw [← escape_eq_flatMap] at hbs
  subst hbs
  rw [exec_feT]
  obtain hv | ⟨c, rfl, hv⟩ := hv
  · exact feTyped_of_fits hv rfl rfl hfit
  · exact feTyped_of_fits hv rfl rfl hfit

theorem escByte_of_lt {b : Byte} (h : b.toNat < 32) : escByte b = [Config.esc, b + 64#8] := if_pos h

theorem escByte_of_ge {b : Byte} (h : ¬ b.toNat < 32) : escByte b = [b] := if_neg h

/-- A byte that is no escape marker passes unchanged, the last one too (R116). -/
theorem unescape_cons_of_ne {b : Byte} (h : b ≠ Config.esc) (j : Nat) (rest : List Byte) :
    unescape j (b :: rest) = (unescape (j + 1) rest).map fun u => b :: u := by
  cases rest with
  | nil => simp [unescape, h, Except.map]
  | cons x rest => rw [unescape, if_neg h]

/-- A marker takes the byte after it, if that is at least 64 (R116). -/
theorem unescape_pair {x : Byte} (h : 64 ≤ x.toNat) (j : Nat) (rest : List Byte) :
    unescape j (Config.esc :: x :: rest) = (unescape (j + 2) rest).map fun u => (x - 64#8) :: u := by
  rw [unescape, if_pos rfl, if_neg (Nat.not_lt.2 h)]; rfl

/-- Unescaping the escaped form of one byte gives the byte back: a byte below 32 is carried by a pair, and every other
byte is not the marker. -/
theorem unescape_escByte (b : Byte) (j : Nat) (rest : List Byte) :
    unescape j (escByte b ++ rest) = (unescape (j + (escByte b).length) rest).map fun u => b :: u := by
  by_cases h : b.toNat < 32
  · have hge : 64 ≤ (b + 64#8).toNat := by bv_omega
    rw [escByte_of_lt h]
    simpa using unescape_pair hge j rest
  · have hne : b ≠ Config.esc := by rintro rfl; exact h (by decide)
    rw [escByte_of_ge h]
    exact unescape_cons_of_ne hne j rest

/-- Whatever index the field starts at, since the index only names the place of an error. -/
theorem unescape_escape (j : Nat) (txt : List Byte) : unescape j (escape txt) = .ok txt := by
  induction txt generalizing j with
  | nil => rw [escape, unescape]
  | cons b txt ih => rw [escape, unescape_escByte, ih]; rfl

/-- Settles O29: the bytes of a TEXT are its escaped form, and that unescapes to the text. -/
theorem unescapeUndoesEscape : Obligations.UnescapeUndoesEscape :=
  fun txt => ⟨rfl, unescape_escape 0 txt⟩

end Sys2Proof.Machine
end

section
/-! FLD, encoding: the date-time layouts of `FE.Q` and `FE.q` (spec/41_field_codec.md R107, R108). -/

namespace Sys2Proof.Machine

section
variable {v : DateTime}

theorem bytesQ_of_fits (hday : v.day ≤ 99) (hmonth : v.month ≤ 99) (hhour : v.hour ≤ 99) (hminute : v.minute ≤ 99) :
    bytesQ (.datetime v) = some (dateBytes v) :=
  if_neg (by omega)

theorem bytesQs_of_fits (hday : v.day ≤ 99) (hmonth : v.month ≤ 99) (hhour : v.hour ≤ 99) (hminute : v.minute ≤ 99)
    (hsecond : v.second ≤ 99) : bytesQs (.datetime v) = some (dateBytes v ++ [0x2D#8] ++ dec2 v.second) :=
  if_neg (by omega)

theorem bytesQ_of_above (h : 99 < v.day ∨ 99 < v.month ∨ 99 < v.hour ∨ 99 < v.minute) :
    bytesQ (.datetime v) = none :=
  if_pos h

theorem bytesQs_of_above (h : 99 < v.day ∨ 99 < v.month ∨ 99 < v.hour ∨ 99 < v.minute ∨ 99 < v.second) :
    bytesQs (.datetime v) = none :=
  if_pos h

end

/-- Settles O15: the fields that fit two digits have the layouts of 14 and 17 bytes, a field above 99 has no text. -/
theorem dateTokensAreTheLayouts : Obligations.DateTokensAreTheLayouts := by
  intro s v d2 bs hv hd2 hbs
  obtain rfl : d2 = dec2 := funext hd2
  obtain rfl : bs = dateBytes v := hbs
  simp only [exec_feQ, exec_feQs]
  refine ⟨fun hday hmonth hhour hminute hfit => ?_, fun hday hmonth hhour hminute hsecond hfit => ?_,
    fun h => ⟨?_, ?_⟩, fun h => ?_⟩
  · exact feTyped_of_fits hv rfl (bytesQ_of_fits hday hmonth hhour hminute) hfit
  · exact feTyped_of_fits hv rfl (bytesQs_of_fits hday hmonth hhour hminute hsecond) hfit
  · exact feTyped_of_no_text hv rfl (bytesQ_of_above h)
  · exact feTyped_of_no_text hv rfl (bytesQs_of_above (by omega))
  · exact feTyped_of_no_text hv rfl (bytesQs_of_above (by omega))

end Sys2Proof.Machine
end

section
/-! FLD, decoding: the literal token (spec/41_field_codec.md R112) and the width of a field (R111). -/

namespace Sys2Proof.Machine

theorem exec_fdLit (k : Byte) (s : State) : exec (.fdLit k) s = execFdLit k s := rfl

/-- Settles O20: the byte under PC is the literal, another byte, or none, and past PLEN there is none. -/
theorem literalTokenIsMatched : Obligations.LiteralTokenIsMatched := by
  intro s p k hp
  rw [exec_fdLit, execFdLit, withPayload_eq hp]
  refine ⟨fun hb => ?_, fun b hb hne => ?_, fun hend => ?_⟩
  · rw [hb]
    exact if_pos rfl
  · rw [hb]
    exact if_neg hne
  · have hnone : p[s.pc]? = none := List.getElem?_eq_none (Memory.readBytes_length hp ▸ hend)
    rw [hnone]
    rfl

/-- The five typed codes, by their bytes (R69). -/
theorem isTyped_iff (k : Byte) : isTyped k = true ↔ k ∈ [0x57#8, 0x42#8, 0x54#8, 0x51#8, 0x71#8] := by
  unfold isTyped classify
  split_ifs <;> simp [*]

theorem classify_of_literal {k : Byte} (h : isTyped k = false) : classify k = .lit k := by
  have hmem : k ∉ [0x57#8, 0x42#8, 0x54#8, 0x51#8, 0x71#8] := by
    rw [← isTyped_iff, h]
    decide
  simp only [List.mem_cons, List.not_mem_nil, or_false, not_or] at hmem
  simp [classify, hmem]

theorem classify_of_typed {k : Byte} (h : isTyped k = true) : ∃ c, classify k = .typed c := by
  unfold isTyped at h
  split at h
  · exact ⟨_, ‹_›⟩
  · cases h

theorem tokenWidth_of_literal {k : Byte} (h : isTyped k = false) : tokenWidth k = 1 := by
  rw [tokenWidth, classify_of_literal h]

theorem tailWidth_eq_sum (t : List Byte) : tailWidth t = (t.map tokenWidth).sum := by
  induction t with
  | nil => rfl
  | cons k t ih => rw [tailWidth, ih, List.map_cons, List.sum_cons]

section
variable {code : FieldCode} {rest p : List Byte} {c w : Nat} {k l : Byte}

theorem fieldWidth_of_fixed (hw : fixedWidth code = some w) (hle : c + w ≤ p.length) :
    fieldWidth code rest p c = .ok w := by
  simp only [fieldWidth, hw]
  exact if_neg (Nat.not_lt.2 hle)

theorem fieldWidth_of_fixed_short (hw : fixedWidth code = some w) (hlt : p.length < c + w) :
    fieldWidth code rest p c = .error (.short c code) := by
  simp only [fieldWidth, hw]
  exact if_pos hlt

theorem fieldWidth_last (hw : fixedWidth code = none) : fieldWidth code [] p c = .ok (p.length - c) := by
  simp only [fieldWidth, hw]

theorem fieldWidth_of_delimiter {d : Nat} (hw : fixedWidth code = none) (hl : isTyped l = false)
    (hd : (p.drop c).findIdx? (· == l) = some d) : fieldWidth code (l :: rest) p c = .ok d := by
  simp only [fieldWidth, hw, classify_of_literal hl, hd]

theorem fieldWidth_of_no_delimiter (hw : fixedWidth code = none) (hl : isTyped l = false)
    (hd : (p.drop c).findIdx? (· == l) = none) :
    fieldWidth code (l :: rest) p c = .error (.expected p.length none l) := by
  simp only [fieldWidth, hw, classify_of_literal hl, hd]

theorem fieldWidth_before_typed (hw : fixedWidth code = none) (hk : isTyped k = true) :
    fieldWidth code (k :: rest) p c =
      if p.length - c < tokenWidth k + (rest.map tokenWidth).sum then .error (.short c code)
      else .ok (p.length - c - (tokenWidth k + (rest.map tokenWidth).sum)) := by
  obtain ⟨ck, hck⟩ := classify_of_typed hk
  simp only [fieldWidth, hw, hck, tailWidth_eq_sum, List.map_cons, List.sum_cons]

/-- The first occurrence of a delimiter at or after the cursor, counted from the cursor. -/
theorem findIdx?_drop_first {e : Nat} (hce : c ≤ e) (he : p[e]? = some l)
    (hfirst : ∀ j, c ≤ j → j < e → p[j]? ≠ some l) : (p.drop c).findIdx? (· == l) = some (e - c) := by
  obtain ⟨hlt, hval⟩ := List.getElem?_eq_some_iff.1 he
  refine List.findIdx?_eq_some_iff_getElem.2 ⟨by rw [List.length_drop]; omega, ?_, fun j hj => ?_⟩
  · simpa [Nat.add_sub_cancel' hce] using hval
  · have hne := hfirst (c + j) (by omega) (by omega)
    rw [List.getElem?_eq_getElem (by omega)] at hne
    simpa using hne

theorem findIdx?_drop_none (h : ∀ j, c ≤ j → p[j]? ≠ some l) : (p.drop c).findIdx? (· == l) = none := by
  refine List.findIdx?_eq_none_iff.2 fun x hx => ?_
  obtain ⟨j, hj⟩ := List.mem_iff_getElem?.1 hx
  rw [List.getElem?_drop] at hj
  rw [beq_eq_false_iff_ne]
  rintro rfl
  exact h (c + j) (by omega) hj

end

/-- Settles O21: a fixed width is met or short; a variable field ends with the payload, at the first delimiter, or where
the widths of the later tokens begin. -/
theorem fieldWidthRule : Obligations.FieldWidthRule := by
  refine ⟨isTyped_iff, ⟨rfl, rfl, rfl⟩, fun k => tokenWidth_of_literal, fun p rest c _ => ⟨fun code w hmem => ?_,
    fun code hcode => ?_⟩⟩
  · have hw : fixedWidth code = some w := by
      simp only [List.mem_cons, Prod.mk.injEq, List.not_mem_nil, or_false] at hmem
      obtain ⟨rfl, rfl⟩ | ⟨rfl, rfl⟩ | ⟨rfl, rfl⟩ := hmem <;> rfl
    exact ⟨fieldWidth_of_fixed hw, fieldWidth_of_fixed_short hw⟩
  · have hw : fixedWidth code = none := by
      obtain rfl | rfl := hcode <;> rfl
    refine ⟨fieldWidth_last hw,
      fun l e hl hce he hfirst => fieldWidth_of_delimiter hw hl (findIdx?_drop_first hce he hfirst),
      fun l hl hnone => fieldWidth_of_no_delimiter hw hl (findIdx?_drop_none hnone), fun k hk hle => ?_,
      fun k hk hlt => ?_⟩
    · rw [fieldWidth_before_typed hw hk]
      exact if_neg (Nat.not_lt.2 hle)
    · rw [fieldWidth_before_typed hw hk]
      exact if_pos hlt

end Sys2Proof.Machine
end

section
/-! FLD, decoding: one rule per outcome of a typed token (spec/41_field_codec.md R110), and the digits of `FD.W`
(R113). -/

namespace Sys2Proof.Machine

open Sys2Proof.Safety

theorem exec_fdW (s : State) : exec .fdW s = fdTyped .w fieldW s := rfl

section
variable {code : FieldCode} {f : List Byte → Kind → State → Out} {s : State} {p : List Byte}

theorem fdTyped_of_no_width {e : DecodeInfo} (hp : Memory.readBytes s.pbuf 0 s.plen = some p)
    (hw : fieldWidth code (s.tmpl.drop (s.tc + 1)) p s.pc = .error e) :
    fdTyped code f s = .next (raised (.decodeMismatch e) s) := by
  rw [fdTyped, withPayload_eq hp, hw]
  rfl

/-- With its width found and its placeholder suitable, the field goes to its parser, PC after it. -/
theorem fdTyped_of_width {w : Nat} {k : Kind} (hp : Memory.readBytes s.pbuf 0 s.plen = some p)
    (hw : fieldWidth code (s.tmpl.drop (s.tc + 1)) p s.pc = .ok w) (hk : slotOutKind s s.sc = some k)
    (ha : accepts code k = true) :
    fdTyped code f s = f ((p.drop s.pc).take w) k { s with pc := s.pc + w } := by
  rw [fdTyped, withPayload_eq hp, hw]
  simp only [hk, ha, if_true]

end

theorem unhex_upperHexDigit : ∀ n < 16, unhex (upperHexDigit n) = some n := by decide

/-- A byte that `unhex` takes is one of the sixteen digits (R71). -/
theorem eq_upperHexDigit_of_unhex {b : Byte} {n : Nat} (h : unhex b = some n) : n < 16 ∧ b = upperHexDigit n := by
  unfold unhex at h
  split_ifs at h with hdec hup
  · obtain rfl := Option.some.inj h
    refine ⟨by omega, BitVec.eq_of_toNat_eq ?_⟩
    rw [upperHexDigit, if_pos (by omega), BitVec.toNat_ofNat]
    omega
  · obtain rfl := Option.some.inj h
    refine ⟨by omega, BitVec.eq_of_toNat_eq ?_⟩
    rw [upperHexDigit, if_neg (by omega), BitVec.toNat_ofNat]
    omega

theorem unhex_eq_none {b : Byte} (h : ∀ n < 16, b ≠ upperHexDigit n) : unhex b = none :=
  Option.eq_none_iff_forall_ne_some.2 fun n hn =>
    have ⟨hlt, heq⟩ := eq_upperHexDigit_of_unhex hn
    h n hlt heq

/-- A digit shifts what stands before it by one place. -/
theorem unhexAll_cons_digit {n : Nat} (hn : n < 16) (acc : Nat) (bs : List Byte) :
    unhexAll acc (upperHexDigit n :: bs) = unhexAll (acc * 16 + n) bs := by
  simp only [unhexAll, unhex_upperHexDigit n hn]

/-- The bytes are read in order, so the first that is no digit is the one reported. -/
theorem unhexAll_of_first_bad {raw : List Byte} {j : Nat} {b : Byte} (hb : raw[j]? = some b)
    (hbad : ∀ n < 16, b ≠ upperHexDigit n) (hpre : ∀ i < j, ∃ n < 16, raw[i]? = some (upperHexDigit n)) (acc : Nat) :
    unhexAll acc raw = .error b := by
  induction raw generalizing j acc with
  | nil => cases hb
  | cons x raw ih =>
    cases j with
    | zero =>
      obtain rfl : x = b := by simpa using hb
      simp only [unhexAll, unhex_eq_none hbad]
    | succ j =>
      obtain ⟨n, hn, hx⟩ := hpre 0 (Nat.succ_pos j)
      obtain rfl : x = upperHexDigit n := by simpa using hx
      rw [unhexAll_cons_digit hn]
      exact ih (by simpa using hb) (fun i hi => by simpa using hpre (i + 1) (by omega)) _

/-- Four digits spell the number of R113. -/
theorem unhexAll_four {n0 n1 n2 n3 : Nat} (h0 : n0 < 16) (h1 : n1 < 16) (h2 : n2 < 16) (h3 : n3 < 16) :
    unhexAll 0 [upperHexDigit n0, upperHexDigit n1, upperHexDigit n2, upperHexDigit n3] =
      .ok (n0 * 4096 + n1 * 256 + n2 * 16 + n3) := by
  rw [unhexAll_cons_digit h0, unhexAll_cons_digit h1, unhexAll_cons_digit h2, unhexAll_cons_digit h3, unhexAll]
  exact congrArg _ (by omega)

section
variable {raw : List Byte} {k : Kind} {s : State}

theorem fieldW_of_digits {v : Nat} (h : unhexAll 0 raw = .ok v) : fieldW raw k s = putSlot (.int v) k s := by
  rw [fieldW, h]

theorem fieldW_of_bad {b : Byte} (h : unhexAll 0 raw = .error b) :
    fieldW raw k s = .next (raised (.decodeMismatch (.parseByte .w b)) s) := by
  rw [fieldW, h]
  rfl

end

/-- Settles O22: the field is four bytes wide or short, and its bytes are digits up to the first that is none. -/
theorem wFieldDecodes : Obligations.WFieldDecodes := by
  intro s p hp hk
  rw [exec_fdW]
  refine ⟨fun n0 n1 n2 n3 h0 h1 h2 h3 hraw => ?_, fun j b hlen hj hb hbad hpre => ?_, fun hshort => ?_⟩
  · have hlen : s.pc + 4 ≤ p.length := by
      have := congrArg List.length hraw
      simp only [List.length_take, List.length_drop, List.length_cons, List.length_nil] at this
      omega
    rw [fdTyped_of_width hp (fieldWidth_of_fixed rfl hlen) hk rfl, hraw, fieldW_of_digits (unhexAll_four h0 h1 h2 h3)]
    rfl
  · have hbyte : ∀ i < 4, ((p.drop s.pc).take 4)[i]? = p[s.pc + i]? := fun i hi => by
      rw [List.getElem?_take_of_lt hi, List.getElem?_drop]
    have herr : unhexAll 0 ((p.drop s.pc).take 4) = .error b :=
      unhexAll_of_first_bad ((hbyte j hj).trans hb) hbad (fun i hi => by rw [hbyte i (by omega)]; exact hpre i hi) 0
    rw [fdTyped_of_width hp (fieldWidth_of_fixed rfl hlen) hk rfl, fieldW_of_bad herr]
  · exact fdTyped_of_no_width hp (fieldWidth_of_fixed_short rfl hshort)

end Sys2Proof.Machine
end

section
/-! FRM, encoding: one rule per outcome of `FRM.ENC`, and the bytes of the two frames (spec/42_frame_codec.md R140,
R141). -/

namespace Sys2Proof.Machine

section
variable {id num : Byte} {st : Option DeviceStatus} {s : State} {k : List Byte → State → Out} {p : List Byte}

/-- A frame whose length byte can hold `36 + P` is put at FBUF[0] and handed on. -/
theorem frameEncode_of_fits (hp : Memory.readBytes s.pbuf 0 s.plen = some p)
    (hfit : lengthPayload p.length st ≤ s.cfg.payloadMax) :
    frameEncode id num st s k = k (frameBytes s.cfg.coverage id num p st)
      { s with
        expst := st.isSome
        fbuf := Memory.writeBytes s.fbuf 0 (frameBytes s.cfg.coverage id num p st)
        flen := lengthPayload p.length st + 10 } := by
  rw [Memory.readBytes_length hp] at hfit
  rw [frameEncode, if_neg (Nat.not_lt.2 hfit), withPayload_eq hp, length_frameBytes]

/-- A longer payload is refused with its own length, the status bytes not counted; only EXPST is latched before. -/
theorem frameEncode_of_too_long (hp : Memory.readBytes s.pbuf 0 s.plen = some p)
    (hlong : s.cfg.payloadMax < lengthPayload p.length st) :
    frameEncode id num st s k = .next (raised (.payloadTooLong p.length) { s with expst := st.isSome }) := by
  rw [Memory.readBytes_length hp] at hlong ⊢
  exact if_pos hlong

end

theorem exec_frmEncHost (s : State) :
    exec .frmEncHost s =
      frameEncode s.opnd.id s.opnd.num none (startOp s) fun f t => .next { t with result := .frame f } := rfl

theorem exec_frmEncDevice (s : State) :
    exec .frmEncDevice s =
      frameEncode s.opnd.id s.opnd.num (some s.opnd.status) (startOp s) fun f t =>
        .next { t with result := .frame f } := rfl

/-- An error overwrites ERR and the result, so what the start of the operation did to them is not seen. -/
theorem raised_startOp (e : Err) (x : Bool) (s : State) :
    raised e { startOp s with expst := x } = raised e { s with expst := x } := rfl

/-- R140 byte for byte, the checksum taken over the four header bytes and the payload. -/
theorem frameBytes_host {h : List Byte} {d : Quad} {c : Config.Coverage} {id num : Byte} {p : List Byte}
    (hh : h = [0x01#8, BitVec.ofNat 8 (36 + p.length), id, num]) (hd : d = bccRender (bccSum c h p none)) :
    frameBytes c id num p none = h ++ p ++ [0x05#8] ++ [d.b0, d.b1, d.b2, d.b3] ++ [0x03#8] := by
  subst hh hd
  rfl

/-- R141 byte for byte: the length byte counts the marker and the block, which stand between payload and terminator. -/
theorem frameBytes_device {h : List Byte} {d : Quad} {c : Config.Coverage} {id num : Byte} {p : List Byte}
    {b : DeviceStatus} (hh : h = [0x01#8, BitVec.ofNat 8 (36 + p.length + 7), id, num])
    (hd : d = bccRender (bccSum c h p (some b))) :
    frameBytes c id num p (some b) =
      h ++ p ++ [0x04#8] ++ b.toList ++ [0x05#8] ++ [d.b0, d.b1, d.b2, d.b3] ++ [0x03#8] := by
  subst hh hd
  rfl

/-- Settles O32: the payload fits and the frame of R140 is put at FBUF[0], or it is refused with its length. -/
theorem hostFrameIsAssembled : Obligations.HostFrameIsAssembled := by
  refine ⟨rfl, fun s p hp => ⟨fun h f d hfit hh hd hf => ?_, fun hlong => ?_⟩⟩
  · rw [exec_frmEncHost, frameEncode_of_fits (st := none) (s := startOp s) hp hfit, startOp_cfg,
      frameBytes_host hh hd, ← hf]
    rfl
  · rw [exec_frmEncHost, frameEncode_of_too_long (st := none) (s := startOp s) hp hlong, raised_startOp]
    rfl

/-- Settles O33: as O32, with the marker and the status block of R141 counted in the length. -/
theorem deviceFrameIsAssembled : Obligations.DeviceFrameIsAssembled := by
  refine ⟨rfl, fun s p hp => ⟨fun h f d hfit hh hd hf => ?_, fun hlong => ?_⟩⟩
  · rw [exec_frmEncDevice, frameEncode_of_fits (st := some s.opnd.status) (s := startOp s) hp hfit, startOp_cfg,
      frameBytes_device hh hd, ← hf]
    rfl
  · rw [exec_frmEncDevice, frameEncode_of_too_long (st := some s.opnd.status) (s := startOp s) hp hlong,
      raised_startOp]
    rfl

end Sys2Proof.Machine
end

section
/-! The message id counter (spec/44_command_session.md R200, R207). -/

namespace Sys2Proof.Machine

theorem nextMid_of_max : nextMid 127#8 = 32#8 := rfl

theorem nextMid_of_ne_max {m : Byte} (h : m ≠ 127#8) : nextMid m = BitVec.ofNat 8 (m.toNat + 1) := if_neg h

/-- Over every byte, also those below 32 and above 127, where the id is not on its cycle. -/
theorem nextMid_eq (m : Byte) : nextMid m = if m = 127#8 then 32#8 else BitVec.ofNat 8 (m.toNat + 1) := by
  split
  case isTrue h => rw [h, nextMid_of_max]
  case isFalse h => exact nextMid_of_ne_max h

/-- One take moves the id from place `k` to place `k + 1` of the cycle of 96 ids: the wrap to 32 is the step from 95 to 0
modulo 96. -/
theorem toNat_nextMid_of_cycle {m : Byte} {k : Nat} (h : m.toNat = 32 + k % 96) :
    (nextMid m).toNat = 32 + (k + 1) % 96 := by
  by_cases hm : m = 127#8
  · subst hm
    have hlast : 127 = 32 + k % 96 := h
    rw [nextMid_of_max, BitVec.toNat_ofNat]
    omega
  · have hne : m.toNat ≠ 127 := fun e => hm (BitVec.eq_of_toNat_eq e)
    rw [nextMid_of_ne_max hm, BitVec.toNat_ofNat]
    omega

/-- The id cycling law of R207. -/
theorem toNat_iterate_nextMid (k : Nat) : ((nextMid^[k]) 32#8).toNat = 32 + k % 96 := by
  induction k with
  | zero => rfl
  | succ k ih =>
    rw [Function.iterate_succ_apply']
    exact toNat_nextMid_of_cycle ih

theorem exec_sesNextId (s : State) :
    exec .sesNextId s = .next { s with
      callId := s.mid
      mid := nextMid s.mid
      act := if s.act = .callNextId then .callFrame else s.act } := rfl

/-- Settles O47: the instruction's exact next state, and the cycle of ids by induction on the number of takes. -/
theorem nextIdTakesAndAdvances : Obligations.NextIdTakesAndAdvances :=
  ⟨fun s => by rw [exec_sesNextId, nextMid_eq], toNat_iterate_nextMid⟩

end Sys2Proof.Machine
end

section
/-! Illegal operations: the requests that are refused with `IllegalOp` (spec/60_exceptions.md R234). -/

namespace Sys2Proof.Machine

theorem exec_stFlag_of_ge {k : BitVec 5} (h : 22 ≤ k.toNat) (s : State) : exec (.stFlag k) s = .next (illegal s) := by
  have hnone : allFlags[k.toNat]? = none := List.getElem?_eq_none h
  change execStFlag k s = _
  simp [execStFlag, hnone]

/-- The instructions the port marks as refused are the ones whose own meaning is `IllegalOp`. -/
theorem exec_of_refusedRequest {i : Instr} (h : refusedRequest i = true) (s : State) :
    exec i s = .next (illegal s) := by
  unfold refusedRequest at h
  split at h
  case h_6 k => exact exec_stFlag_of_ge (of_decide_eq_true h) s
  case h_7 => cases h
  all_goals rfl

/-- The selectors from 0xC on are the four that no row of the opcode table uses. -/
theorem op_of_ge_C : ∀ {op : BitVec 4}, 0xC#4 ≤ op → op = 0xC#4 ∨ op = 0xD#4 ∨ op = 0xE#4 ∨ op = 0xF#4 := by decide

theorem extractLsb_append_op (op : BitVec 4) (k : BitVec 5) : (op ++ k).extractLsb 8 5 = op :=
  BitVec.extractLsb'_append_eq_left

theorem extractLsb_append_flag (op : BitVec 4) (k : BitVec 5) : (op ++ k).extractLsb 4 0 = k :=
  BitVec.extractLsb'_append_eq_right

/-- A flag index past the named rows is read as the generic `ST.FLAG`. -/
theorem decode_portWord_flag_of_ge {k : BitVec 5} (h : 22 ≤ k.toNat) (e : Bool) :
    decode (portWord 0x8#4 e k) = .ok (.stFlag k) := by
  have hnone : flagRows[k.toNat]? = none := List.getElem?_eq_none h
  change decodeOp4Flag5 (0x8#4 ++ k) = _
  simp only [decodeOp4Flag5, extractLsb_append_op, extractLsb_append_flag, hnone, if_true]

/-- Every word of R234 decodes, and to an instruction the port refuses. -/
theorem decode_portWord_of_illegal {op : BitVec 4} {k : BitVec 5}
    (h : op = 0x0#4 ∨ 0xC#4 ≤ op ∨ (op = 0x8#4 ∧ 22 ≤ k.toNat)) (e : Bool) :
    ∃ i, decode (portWord op e k) = .ok i ∧ refusedRequest i = true := by
  obtain rfl | hge | ⟨rfl, hk⟩ := h
  · exact ⟨.illegal0, rfl, rfl⟩
  · obtain rfl | rfl | rfl | rfl := op_of_ge_C hge
    · exact ⟨.illegalC, rfl, rfl⟩
    · exact ⟨.illegalD, rfl, rfl⟩
    · exact ⟨.illegalE, rfl, rfl⟩
    · exact ⟨.illegalF, rfl, rfl⟩
  · exact ⟨.stFlag k, decode_portWord_flag_of_ge hk e, decide_eq_true hk⟩

section
variable {s : State} {r : Request} {e : Bool} {rest : List PortEvent}

theorem fetch_of_idle_request {i : Instr} (ha : s.act = .idle) (hp : s.port = ⟨e, .start r⟩ :: rest)
    (hd : decode (portWord r.op r.expst r.flag) = .ok i) :
    fetch s = .run i (latchOperands i r { s with port := rest }) := by
  simp [fetch, hp, ha, hostAct, request, hd]

/-- A refused request latches no operands, so that only ERR and the port change. -/
theorem step_of_refusedRequest {i : Instr} (ha : s.act = .idle) (hp : s.port = ⟨e, .start r⟩ :: rest)
    (hd : decode (portWord r.op r.expst r.flag) = .ok i) (hi : refusedRequest i = true) :
    step s = .next (illegal { s with port := rest }) := by
  rw [step_of_run (fetch_of_idle_request ha hp hd), exec_of_refusedRequest hi]
  simp [latchOperands, hi]

theorem fetch_of_early {a : HostAct} (ha : s.act ≠ .idle) (hp : s.port = ⟨true, a⟩ :: rest) :
    fetch s = .done (earlyAct a { s with port := rest }) := by
  simp [fetch, hp, ha]

theorem step_of_early_request (ha : s.act ≠ .idle) (hp : s.port = ⟨true, .start r⟩ :: rest) :
    step s = .next (illegal { s with port := rest }) :=
  step_of_done (fetch_of_early ha hp)

end

theorem refusedRequest_of_illegal_selector {i : Instr}
    (h : i ∈ [Instr.illegal0, .illegalC, .illegalD, .illegalE, .illegalF]) : refusedRequest i = true := by
  simp only [List.mem_cons, List.not_mem_nil, or_false] at h
  obtain rfl | rfl | rfl | rfl | rfl := h
  all_goals rfl

/-- Settles O53: the illegal instructions mean `IllegalOp`, the words of R234 decode to them, and an early request is
answered before it is decoded. -/
theorem illegalRequestsChangeOnlyErr : Obligations.IllegalRequestsChangeOnlyErr := by
  refine ⟨fun i s hi => ?_, fun s r rest ha hp hr => ?_, fun s r rest ha hp => ?_⟩
  · exact exec_of_refusedRequest (refusedRequest_of_illegal_selector hi) s
  · obtain ⟨i, hd, hi⟩ := decode_portWord_of_illegal hr r.expst
    exact step_of_refusedRequest ha hp hd hi
  · exact step_of_early_request ha hp

end Sys2Proof.Machine
end

section
/-! Encoding: the decoder and the encoder on each decode space (spec/30_encoding.md R67 to R69, R77, R80). -/

namespace Sys2Proof

theorem decodeTokenEnc_of_literal {k : Byte} (h : k ∉ typedBytes) : decodeTokenEnc k = .feLit k := by
  simp only [typedBytes, List.mem_cons, List.not_mem_nil, or_false, not_or] at h
  simp [decodeTokenEnc, h]

theorem decodeTokenDec_of_literal {k : Byte} (h : k ∉ typedBytes) : decodeTokenDec k = .fdLit k := by
  simp only [typedBytes, List.mem_cons, List.not_mem_nil, or_false, not_or] at h
  simp [decodeTokenDec, h]

theorem decodeRxFirst_of_bad {b : Byte} (h : b ∉ firstBytes) : decodeRxFirst b = .rxBad b := by
  simp only [firstBytes, Config.start, Config.nak, Config.busy, List.mem_cons, List.not_mem_nil, or_false,
    not_or] at h
  simp [decodeRxFirst, h]

theorem wellFormed_feLit_iff {k : Byte} : WellFormed (.feLit k) ↔ k ∉ typedBytes := by
  simp [WellFormed, Instr.wellFormed]

theorem wellFormed_fdLit_iff {k : Byte} : WellFormed (.fdLit k) ↔ k ∉ typedBytes := by
  simp [WellFormed, Instr.wellFormed]

theorem wellFormed_rxBad_iff {b : Byte} : WellFormed (.rxBad b) ↔ b ∉ firstBytes := by
  simp [WellFormed, Instr.wellFormed]

theorem wellFormed_stFlag_iff {k : BitVec 5} : WellFormed (.stFlag k) ↔ 22 ≤ k.toNat := by
  simp [WellFormed, Instr.wellFormed]

/-- Settles O1: the rows whose word is a constant decode by evaluation; a literal, a bad first byte and a free flag index
are where well-formedness keeps the words of other rows away. -/
theorem decodeOfEncodeIsTheInstruction : Obligations.DecodeOfEncodeIsTheInstruction := by
  intro i hi
  cases i
  case feLit k => exact congrArg Except.ok (decodeTokenEnc_of_literal (wellFormed_feLit_iff.1 hi))
  case fdLit k => exact congrArg Except.ok (decodeTokenDec_of_literal (wellFormed_fdLit_iff.1 hi))
  case rxBad b => exact congrArg Except.ok (decodeRxFirst_of_bad (wellFormed_rxBad_iff.1 hi))
  case stFlag k => exact Machine.decode_portWord_flag_of_ge (wellFormed_stFlag_iff.1 hi) false
  case frmDec e => cases e <;> rfl
  all_goals rfl

/-- What a decoded word of each fixed-width selector space stands for is decided word by word. -/
theorem encode_of_decodeOp4 :
    ∀ w : BitVec 4, ∀ i ∈ (decodeOp4 w).toOption, encode i = .op4 w ∧ WellFormed i := by decide

theorem encode_of_decodeOp4Expst :
    ∀ w : BitVec 5, ∀ i ∈ (decodeOp4Expst w).toOption, encode i = .op4Expst w ∧ WellFormed i := by decide

/-- The 22 named rows have the words of their indices. -/
theorem encode_of_flagRows :
    ∀ k : BitVec 5, ∀ i ∈ flagRows[k.toNat]?, encode i = .op4Flag5 (0x8#4 ++ k) ∧ WellFormed i := by decide

theorem append_extractLsb_flag5 (w : BitVec 9) : w.extractLsb 8 5 ++ w.extractLsb 4 0 = w :=
  (BitVec.extractLsb'_append_extractLsb'_eq_extractLsb' rfl).trans BitVec.extractLsb'_eq_self

theorem encode_of_decodeOp4Flag5 {w : BitVec 9} {i : Instr} (h : decodeOp4Flag5 w = .ok i) :
    encode i = .op4Flag5 w ∧ WellFormed i := by
  unfold decodeOp4Flag5 at h
  split at h
  case isFalse => cases h
  case isTrue hop =>
    have hw : 0x8#4 ++ w.extractLsb 4 0 = w := hop ▸ append_extractLsb_flag5 w
    split at h
    case h_1 row hrow =>
      obtain rfl := Except.ok.inj h
      exact hw ▸ encode_of_flagRows _ _ hrow
    case h_2 hnone =>
      obtain rfl := Except.ok.inj h
      exact ⟨congrArg CodeWord.op4Flag5 hw, wellFormed_stFlag_iff.2 (List.getElem?_eq_none_iff.1 hnone)⟩

theorem encode_of_decodeTokenEnc (k : Byte) :
    encode (decodeTokenEnc k) = .token8 .enc k ∧ WellFormed (decodeTokenEnc k) := by
  by_cases h : k ∈ typedBytes
  · simp only [typedBytes, List.mem_cons, List.not_mem_nil, or_false] at h
    obtain rfl | rfl | rfl | rfl | rfl := h <;> exact ⟨rfl, rfl⟩
  · rw [decodeTokenEnc_of_literal h]
    exact ⟨rfl, wellFormed_feLit_iff.2 h⟩

theorem encode_of_decodeTokenDec (k : Byte) :
    encode (decodeTokenDec k) = .token8 .dec k ∧ WellFormed (decodeTokenDec k) := by
  by_cases h : k ∈ typedBytes
  · simp only [typedBytes, List.mem_cons, List.not_mem_nil, or_false] at h
    obtain rfl | rfl | rfl | rfl | rfl := h <;> exact ⟨rfl, rfl⟩
  · rw [decodeTokenDec_of_literal h]
    exact ⟨rfl, wellFormed_fdLit_iff.2 h⟩

theorem encode_of_decodeRxFirst (b : Byte) :
    encode (decodeRxFirst b) = .rxFirst8 b ∧ WellFormed (decodeRxFirst b) := by
  by_cases h : b ∈ firstBytes
  · simp only [firstBytes, List.mem_cons, List.not_mem_nil, or_false] at h
    obtain rfl | rfl | rfl := h <;> exact ⟨rfl, rfl⟩
  · rw [decodeRxFirst_of_bad h]
    exact ⟨rfl, wellFormed_rxBad_iff.2 h⟩

theorem encode_of_decodeWire {b : Byte} {i : Instr} (h : decodeWire b = .ok i) :
    encode i = .wire8 b ∧ WellFormed i := by
  unfold decodeWire at h
  split_ifs at h <;> (obtain rfl := Except.ok.inj h; subst b; exact ⟨rfl, rfl⟩)

theorem mem_toOption_of_ok {α ε : Type} {x : Except ε α} {a : α} (h : x = .ok a) : a ∈ x.toOption := by
  subst h; rfl

/-- Settles O2: one decode space at a time. -/
theorem encodeOfDecodeIsTheWord : Obligations.EncodeOfDecodeIsTheWord := by
  intro c i h
  cases c with
  | op4 w => exact encode_of_decodeOp4 w i (mem_toOption_of_ok h)
  | op4Expst w => exact encode_of_decodeOp4Expst w i (mem_toOption_of_ok h)
  | op4Flag5 w => exact encode_of_decodeOp4Flag5 h
  | token8 d w =>
    cases d with
    | enc => exact Except.ok.inj h ▸ encode_of_decodeTokenEnc w
    | dec => exact Except.ok.inj h ▸ encode_of_decodeTokenDec w
  | rxFirst8 w => exact Except.ok.inj h ▸ encode_of_decodeRxFirst w
  | wire8 w => exact encode_of_decodeWire h
  | internal => exact Except.ok.inj h ▸ ⟨rfl, rfl⟩

/-- A flag index below 22 is read as its named row. -/
theorem decode_portWord_flag_of_lt {k : BitVec 5} (h : k.toNat < 22) (e : Bool) :
    ∃ i ∈ flagRows, decode (portWord 0x8#4 e k) = .ok i := by
  have hrow : flagRows[k.toNat]? = some flagRows[k.toNat] := List.getElem?_eq_getElem h
  refine ⟨_, List.getElem_mem h, ?_⟩
  change decodeOp4Flag5 (0x8#4 ++ k) = _
  simp only [decodeOp4Flag5, Machine.extractLsb_append_op, Machine.extractLsb_append_flag, hrow, if_true]

theorem refusedRequest_of_flagRows : ∀ i ∈ flagRows, Machine.refusedRequest i = false := by decide

/-- The selectors of the rows that IllegalOp does not refuse whatever comes with them. -/
theorem op_of_legal : ∀ {op : BitVec 4}, ¬ (op = 0x0#4 ∨ 0xC#4 ≤ op) →
    op = 0x8#4 ∨ op ∈ [0x1#4, 0x2#4, 0x3#4, 0x4#4, 0x5#4, 0x6#4, 0x7#4, 0x9#4, 0xA#4, 0xB#4] := by decide

theorem decode_portWord_of_legal : ∀ {op : BitVec 4},
    op ∈ [0x1#4, 0x2#4, 0x3#4, 0x4#4, 0x5#4, 0x6#4, 0x7#4, 0x9#4, 0xA#4, 0xB#4] → ∀ (e : Bool) (k : BitVec 5),
    ∃ i, decode (portWord op e k) = .ok i ∧ Machine.refusedRequest i = false := by
  intro op h e k
  simp only [List.mem_cons, List.not_mem_nil, or_false] at h
  obtain rfl | rfl | rfl | rfl | rfl | rfl | rfl | rfl | rfl | rfl := h
  case inr.inr.inr.inr.inr.inl => cases e <;> exact ⟨_, rfl, rfl⟩
  case inr.inr.inr.inr.inr.inr.inl => cases e <;> exact ⟨_, rfl, rfl⟩
  all_goals exact ⟨_, rfl, rfl⟩

/-- Settles O3: a request is one of R234, or a named flag, or one of the other rows. -/
theorem portRequestsDecodeAndIllegalOnesAreNamed : Obligations.PortRequestsDecodeAndIllegalOnesAreNamed := by
  intro op e k
  by_cases hill : (op = 0x0#4 ∨ 0xC#4 ≤ op) ∨ (op = 0x8#4 ∧ 22 ≤ k.toNat)
  · obtain ⟨i, hd, hi⟩ := Machine.decode_portWord_of_illegal (or_assoc.1 hill) e
    exact ⟨i, hd, iff_of_true hi hill⟩
  · suffices ∃ i, decode (portWord op e k) = .ok i ∧ Machine.refusedRequest i = false by
      obtain ⟨i, hd, hi⟩ := this
      exact ⟨i, hd, iff_of_false (by simp [hi]) hill⟩
    rw [not_or] at hill
    obtain rfl | hop := op_of_legal hill.1
    · obtain ⟨i, hmem, hd⟩ := decode_portWord_flag_of_lt (Nat.lt_of_not_le fun hk => hill.2 ⟨rfl, hk⟩) e
      exact ⟨i, hd, refusedRequest_of_flagRows i hmem⟩
    · exact decode_portWord_of_legal hop e k

/-- Settles O4: the sixteen words and the typed codes by evaluation, any other byte is a literal. -/
theorem specWordsDecodeToTheirRows : Obligations.SpecWordsDecodeToTheirRows := by
  refine ⟨rfl, rfl, rfl, rfl, rfl, rfl, rfl, rfl, rfl, rfl, rfl, rfl, rfl, rfl, rfl, rfl, fun b i j h => ?_,
    fun b h => ?_⟩
  · simp only [List.mem_cons, Prod.mk.injEq, List.not_mem_nil, or_false] at h
    obtain ⟨rfl, rfl, rfl⟩ | ⟨rfl, rfl, rfl⟩ | ⟨rfl, rfl, rfl⟩ | ⟨rfl, rfl, rfl⟩ | ⟨rfl, rfl, rfl⟩ := h <;>
      exact ⟨rfl, rfl⟩
  · have hlit : b ∉ typedBytes := by
      simp only [typedBytes, List.mem_cons, List.not_mem_nil, or_false, not_or] at h ⊢
      tauto
    exact ⟨congrArg Except.ok (decodeTokenEnc_of_literal hlit), congrArg Except.ok (decodeTokenDec_of_literal hlit)⟩

end Sys2Proof
end

section
/-! CHK: `BCC.VERIFY` and the laws of the checksum (spec/40_checksum.md R92, R93). -/

namespace Sys2Proof.Machine

/-- Settles O8: the operation is a comparison of the rendered sum with the received digits. -/
theorem verifyComparesTheDigits : Obligations.VerifyComparesTheDigits :=
  fun _ => ⟨fun h => if_pos h, fun h => if_neg h⟩

/-- Replacing one byte moves the sum by the difference of the two bytes. -/
theorem byteSum_set {p : List Byte} {i : Nat} {b : Byte} (h : p[i]? = some b) (b' : Byte) :
    byteSum (p.set i b') + b.toNat = byteSum p + b'.toNat := by
  induction p generalizing i with
  | nil => cases h
  | cons x p ih =>
    cases i with
    | zero =>
      obtain rfl : x = b := by simpa using h
      simp only [List.set_cons_zero, byteSum]
      omega
    | succ i =>
      have := ih (by simpa using h)
      simp only [List.set_cons_succ, byteSum]
      omega

theorem byteSum_le (p : List Byte) : byteSum p ≤ 255 * p.length := by
  induction p with
  | nil => rfl
  | cons b p ih =>
    have := b.isLt
    simp only [byteSum, List.length_cons]
    omega

/-- The difference of two bytes is less than the modulus, so the reduced sums differ too (R93 (d)). -/
theorem bccSum_set_ne (c : Config.Coverage) (h : List Byte) {p : List Byte} (st : Option DeviceStatus) {i : Nat}
    {b b' : Byte} (hb : p[i]? = some b) (hne : b' ≠ b) : bccSum c h (p.set i b') st ≠ bccSum c h p st := by
  intro heq
  have hsum := byteSum_set hb b'
  have hmod := congrArg BitVec.toNat heq
  rw [toNat_bccSum, toNat_bccSum] at hmod
  have hlt := b.isLt
  have hlt' := b'.isLt
  exact hne (BitVec.eq_of_toNat_eq (by omega))

/-- The coverage adds at most the marker and six bytes. -/
theorem bccCov_some_le (c : Config.Coverage) (st : DeviceStatus) : bccCov c (some st) ≤ 1534 := by
  have hle := byteSum_le st.toList
  rw [DeviceStatus.length_toList] at hle
  cases c
  case none => exact Nat.zero_le _
  case block => rw [bccCov_block]; omega
  case markerAndBlock => rw [bccCov_markerAndBlock]; omega

/-- A frame that the length byte can describe never wraps the sum (R93 (b)). -/
theorem checksum_le (c : Config.Coverage) (len id num : Byte) {p : List Byte} {st : Option DeviceStatus}
    (h : lengthPayload p.length st ≤ 219) :
    4 + byteSum [0x01#8, len, id, num] + byteSum p + bccCov c st ≤ 56615 := by
  have hp := byteSum_le p
  have hh : byteSum [0x01#8, len, id, num] ≤ 1 + 255 * 3 := by
    have := byteSum_le [len, id, num]
    simp only [byteSum, List.length_cons, List.length_nil, BitVec.toNat_ofNat] at this ⊢
    omega
  cases st with
  | none =>
    rw [lengthPayload_none] at h
    rw [bccCov_host]
    omega
  | some b =>
    have hc := bccCov_some_le c b
    rw [lengthPayload_some] at h
    omega

/-- Settles O9: rendering is injective, and the bound is below the modulus. -/
theorem checksumSensitivityAndNoWrap : Obligations.ChecksumSensitivityAndNoWrap := by
  refine ⟨fun c h p st i b b' hb hne => bccRender_injective.ne (bccSum_set_ne c h st hb hne),
    fun c len id num p st hP => ?_⟩
  have hle := checksum_le c len id num hP
  rw [toNat_bccSum]
  exact ⟨Nat.mod_eq_of_lt (by omega), hle⟩

end Sys2Proof.Machine
end

section
/-! STS: the flags, their rows and aggregates (spec/43_device_status.md R170 to R196). -/

namespace Sys2Proof.Machine

open Config Safety

/-- The mask of R76 tests the bit of that weight. -/
theorem and_mask_ne_zero (b : Byte) (k : Fin 8) :
    (b &&& (1#8 <<< k.val) != 0#8) = (b.toNat / 2 ^ k.val % 2 == 1) := by
  have htest : (b.toNat / 2 ^ k.val % 2 == 1) = b.getLsbD k.val := by
    rw [BitVec.getLsbD, Nat.testBit_eq_decide_div_mod_eq]; rfl
  have hmask : b &&& (1#8 <<< k.val) = if b.getLsbD k.val then BitVec.twoPow 8 k.val else 0#8 :=
    BitVec.and_twoPow b k.val
  have hpow : ∀ j : Fin 8, BitVec.twoPow 8 j.val ≠ 0#8 := by decide
  rw [htest, hmask]
  cases b.getLsbD k.val <;> simp [hpow k]

theorem getD_toList_eq_statusByte (st : DeviceStatus) : ∀ i : Fin 6, st.toList.getD i.val 0 = statusByte st i
  | 0 | 1 | 2 | 3 | 4 | 5 => rfl

/-- The model's bit and the statement's bit. -/
theorem bitSet_eq_statusBit (st : DeviceStatus) (p : BitPos) : bitSet st p = statusBit st p := by
  rw [bitSet, statusBit, and_mask_ne_zero, getD_toList_eq_statusByte]

theorem flagOf_eq_statusBit (m : StatusMap) (f : Flag) (st : DeviceStatus) : flagOf m f st = statusBit st (m.pos f) :=
  bitSet_eq_statusBit st (m.pos f)

section
variable {f : DeviceStatus → Bool} {s : State}

theorem statusQuery_of_srv (h : s.srv = true) :
    statusQuery f s = .next { s with err := .none, result := .flag (f s.sr) } := if_pos h

theorem statusQuery_of_no_srv (h : s.srv = false) :
    statusQuery f s = .next (raised (.paramMismatch .noStatus) s) := if_neg (by simp [h])

end

/-- The row of each index asks for the flag of that index. -/
theorem exec_flagRows : List.Forall₂ (fun i f => ∀ s, exec i s = stFlagNamed f s) flagRows allFlags := by
  simp only [flagRows, allFlags, errorFlags, warningFlags, stateFlags, List.cons_append, List.nil_append]
  repeat' constructor
  all_goals exact fun _ => rfl

theorem exec_flagRow {k : Nat} {i : Instr} {f : Flag} (hi : flagRows[k]? = some i) (hf : allFlags[k]? = some f)
    (s : State) : exec i s = stFlagNamed f s := by
  have hzip : (i, f) ∈ flagRows.zip allFlags :=
    List.mem_of_getElem? (i := k) (List.getElem?_zip_eq_some.2 ⟨hi, hf⟩)
  exact (List.forall₂_iff_zip.1 exec_flagRows).2 hzip s

theorem index_of_fiscalized {k : Nat} (h : allFlags[k]? = some .fiscalized) : k = 19 := by
  have hlt : k < 22 := (List.getElem?_eq_some_iff.1 h).1
  exact (by decide : ∀ k < 22, allFlags[k]? = some .fiscalized → k = 19) k hlt h

/-- Settles O43: each row is a status query for its flag. -/
theorem namedFlagsReadTheirBit : Obligations.NamedFlagsReadTheirBit := by
  intro s k i f hi hf
  rw [exec_flagRow hi hf, stFlagNamed, ← flagOf_eq_statusBit]
  refine ⟨fun h => statusQuery_of_srv h, fun h => statusQuery_of_no_srv h, fun h => ?_⟩
  subst h
  exact ⟨index_of_fiscalized hf, rfl⟩

theorem exec_stFlag_of_named {k : BitVec 5} {f : Flag} (h : allFlags[k.toNat]? = some f) (s : State) :
    exec (.stFlag k) s = stFlagNamed f s := by
  change execStFlag k s = _
  simp only [execStFlag, h]

/-- Both lists have 22 entries. -/
theorem getElem?_allFlags_of_lt {k : Nat} (h : k < 22) : ∃ f, allFlags[k]? = some f :=
  ⟨_, List.getElem?_eq_getElem (l := allFlags) h⟩

theorem getElem?_flagRows_of_lt {k : Nat} (h : k < 22) : ∃ i, flagRows[k]? = some i :=
  ⟨_, List.getElem?_eq_getElem (l := flagRows) h⟩

/-- Settles O44: both forms are the status query for the flag of the index. -/
theorem genericFlagFormIsTheNamedRow : Obligations.GenericFlagFormIsTheNamedRow := by
  refine fun s k => ⟨fun i hi => ?_, getElem?_flagRows_of_lt, fun hk hs => ?_, fun hk => exec_stFlag_of_ge hk s⟩
  · obtain ⟨f, hf⟩ := getElem?_allFlags_of_lt (List.getElem?_eq_some_iff.1 hi).1
    rw [exec_stFlag_of_named hf, exec_flagRow hi hf]
  · obtain ⟨f, hf⟩ := getElem?_allFlags_of_lt hk
    exact ⟨_, (exec_stFlag_of_named hf s).trans (statusQuery_of_srv hs)⟩

theorem hasErr_iff (m : StatusMap) (st : DeviceStatus) :
    hasErr m st = true ↔ ∃ f ∈ errorFlags, statusBit st (m.pos f) = true := by
  simp only [hasErr, List.any_eq_true, flagOf_eq_statusBit]

theorem hasWarn_iff (m : StatusMap) (st : DeviceStatus) :
    hasWarn m st = true ↔ ∃ f ∈ warningFlags, statusBit st (m.pos f) = true := by
  simp only [hasWarn, List.any_eq_true, flagOf_eq_statusBit]

/-- Settles O45: both aggregates are status queries for the disjunction of their class. -/
theorem aggregatesAreTheirFlags : Obligations.AggregatesAreTheirFlags :=
  fun _ => ⟨fun h => ⟨⟨_, statusQuery_of_srv h, hasErr_iff _ _⟩, ⟨_, statusQuery_of_srv h, hasWarn_iff _ _⟩⟩,
    fun h => ⟨statusQuery_of_no_srv h, statusQuery_of_no_srv h⟩, rfl, rfl⟩

/-- The source's example block (R195). -/
def exampleBlock : DeviceStatus := ⟨0x80#8, 0x80#8, 0x80#8, 0x85#8, 0x80#8, 0xBA#8⟩

/-- The block in which every bit is set. -/
def onesBlock : DeviceStatus := ⟨0xFF#8, 0xFF#8, 0xFF#8, 0xFF#8, 0xFF#8, 0xFF#8⟩

/-- `exampleBits` lists all the bits of the example block. -/
theorem bitSet_exampleBlock {p : BitPos} (h : p ∉ exampleBits) : bitSet exampleBlock p = false := by
  obtain ⟨i, k⟩ := p
  revert i k
  decide

theorem bitSet_zero (p : BitPos) : bitSet DeviceStatus.zero p = false := by
  obtain ⟨i, k⟩ := p
  revert i k
  decide

theorem bitSet_onesBlock (p : BitPos) : bitSet onesBlock p = true := by
  obtain ⟨i, k⟩ := p
  revert i k
  decide

/-- R195 (c) keeps the error positions off the bits of the example block. -/
theorem hasErr_exampleBlock {m : StatusMap} (h : m.admissible = true) : hasErr m exampleBlock = false := by
  rw [StatusMap.admissible, Bool.and_eq_true, List.all_eq_true] at h
  refine List.any_eq_false.2 fun f hf => ?_
  have hout : m.pos f ∉ exampleBits := by simpa using h.2 f hf
  simp [flagOf, bitSet_exampleBlock hout]

/-- `fiscalized` is hard-wired (R190), so no map matters. -/
theorem fiscalized_exampleBlock (m : StatusMap) : flagOf m .fiscalized exampleBlock = true :=
  (by decide : bitSet exampleBlock ⟨5, 3⟩ = true)

theorem someStatusMap_admissible : someStatusMap.admissible = true := by decide

/-- The free positions are used only where they make an admissible map (log 6). -/
theorem freeStatusMap_admissible : freeStatusMap.admissible = true := by
  unfold freeStatusMap
  split
  · assumption
  · exact someStatusMap_admissible

/-- Settles O46: the positions of the error flags miss the bits of the example block; the other blocks are constant. -/
theorem exampleBlockHasNoError : Obligations.ExampleBlockHasNoError := by
  refine ⟨fun m hm => ⟨hasErr_exampleBlock hm, fiscalized_exampleBlock m, ?_, ?_, ?_, ?_⟩, freeStatusMap_admissible⟩
  · exact List.any_eq_false.2 fun f _ => by simp [flagOf, bitSet_zero]
  · exact List.any_eq_false.2 fun f _ => by simp [flagOf, bitSet_zero]
  · exact List.any_eq_true.2 ⟨.errSyntax, by decide, bitSet_onesBlock _⟩
  · exact List.any_eq_true.2 ⟨.warnDisplayDisconnected, by decide, bitSet_onesBlock _⟩

end Sys2Proof.Machine
end

section
/-! Errors, reset and the host port (spec/60_exceptions.md R240, R241, spec/70_reset_and_hazards.md R260 to R270,
spec/10_state.md R14, R24, R29). -/

namespace Sys2Proof.Machine

open Safety

theorem isFrameDec_iff {a : Activity} : a.isFrameDec = true ↔ ∃ c, a = .frameDec c := by
  cases a <;> simp [Activity.isFrameDec]

theorem inCall_iff {a : Activity} :
    a.inCall = true ↔ a ∈ [Activity.fieldEnc true, .fieldDec true, .unescape true .b, .unescape true .t,
      .frameDec true, .callRound, .callEncode, .callNextId, .callFrame, .callWrite, .callStatus] := by
  cases a
  case unescape c vc => cases vc <;> simp [Activity.inCall]
  all_goals simp [Activity.inCall]

/-- The payload an error leaves can be read, and it is no longer than the buffer (log 9). -/
theorem readBytes_raised (e : Err) (s : State) :
    ∃ p, Memory.readBytes (raised e s).pbuf 0 (raised e s).plen = some p ∧ p.length = (raised e s).plen ∧
      p.length ≤ 1024 := by
  obtain ⟨p, hp⟩ := Memory.covers_readBytes (spoil_covers s) (Nat.le_refl _)
  have hlen := Memory.readBytes_length hp
  exact ⟨p, hp, hlen, hlen ▸ spoil_plen_le s⟩

/-- Settles O52: every register an error moves is read off `raised`; the placeholders keep their kinds and lose their
values. -/
theorem raisingAnErrorKeepsAndSpoils : Obligations.RaisingAnErrorKeepsAndSpoils := by
  intro e s
  obtain ⟨p, hp, -, hlen⟩ := readBytes_raised e s
  refine ⟨_, rfl, rfl, rfl, rfl, rfl, ?_, fun h => by simp [h], fun h => by simp [h], inCall_iff, ⟨p, hp, hlen⟩,
    fun n i => ?_, fun i => ?_, fun n i => ?_, ?_, rfl⟩
  · simp only [raised_rxs, isFrameDec_iff]
  · exact slotOutKind_raised e { s with outCnt := n } i
  · simp [hostReadsSlotOut]
  · rw [hostReadsSlotOut]
    split
    · exact raised_slotOut_val e s i
    · rfl
  · simp [hostReadsIdNum]

theorem atReset_reset : AtReset State.reset where
  mid := rfl
  ses := rfl
  rxs := rfl
  counts := ⟨rfl, rfl, rfl⟩
  cursors := ⟨rfl, rfl, rfl⟩
  expst := rfl
  srv := rfl
  err := rfl
  slotIn := ⟨rfl, fun _ hi => List.getElem?_replicate_of_lt hi⟩
  slotOut := ⟨rfl, fun _ hi => List.getElem?_replicate_of_lt hi⟩
  slotCounts := ⟨rfl, rfl⟩
  buffers := ⟨fun _ => rfl, fun _ => rfl⟩
  lengths := ⟨rfl, rfl⟩
  statusMap := rfl
  coverage := rfl
  limits := ⟨rfl, rfl⟩
  retryPred := fun _ => rfl
  legacyCodes := rfl

/-- The number of slots is no register: a reset empties as many as there are (log 23). -/
theorem atReset_applyReset (s : State) : AtReset (applyReset s) :=
  { atReset_reset with
    slotIn := ⟨List.length_replicate, fun _ hi => List.getElem?_replicate_of_lt hi⟩
    slotOut := ⟨List.length_replicate, fun _ hi => List.getElem?_replicate_of_lt hi⟩ }

/-- The default codec takes the codes of bytes to those bytes (log 35). -/
theorem textToBytes_identity (b : List Byte) : textToBytes .identity (b.map BitVec.toNat) = some b := by
  have hall : (b.map BitVec.toNat).all (· < 256) = true := by
    simp only [List.all_map, List.all_eq_true, Function.comp_apply, decide_eq_true_iff]
    exact fun x _ => x.isLt
  simp [textToBytes, hall, Function.comp_def]

section
variable {s : State} {e : Bool} {a : HostAct} {rest : List PortEvent}

/-- Between operations an action that is no request is done by the host port. -/
theorem step_of_hostWrite (ha : s.act = .idle) (hp : s.port = ⟨e, a⟩ :: rest) (hne : ∀ r, a ≠ .start r) :
    step s = hostWrite a { s with port := rest } := by
  have hfetch : fetch s = hostAct a { s with port := rest } := by simp [fetch, hp, ha]
  rw [step, hfetch]
  cases a
  case start r => exact absurd rfl (hne r)
  all_goals rfl

/-- During an operation it is refused. -/
theorem step_of_early_write (ha : s.act ≠ .idle) (hp : s.port = ⟨true, a⟩ :: rest) (hne : ∀ r, a ≠ .start r) :
    step s = .refused .hostWriteWhileBusy ∨ step s = .refused .resetWhileBusy := by
  rw [step_of_done (fetch_of_early ha hp)]
  cases a
  case start r => exact absurd rfl (hne r)
  case reset => exact .inr rfl
  all_goals exact .inl rfl

end

/-- Settles O54: the reset state is the table of R29, and a reset by the host makes it again. -/
theorem resetValues : Obligations.ResetValues :=
  ⟨atReset_reset, ⟨rfl, rfl, rfl, rfl, rfl⟩, fun b => ⟨textToBytes_identity b, rfl⟩, fun _ _ _ ha hp =>
    ⟨_, step_of_hostWrite ha hp nofun, atReset_applyReset _, rfl, rfl, rfl, rfl, rfl, rfl, rfl, rfl, rfl, rfl⟩⟩

/-- The writes that the host port refuses between operations (log 22). -/
theorem hostWrite_refused {a : HostAct} {r : Refusal} {s : State}
    (h : (r = .noSuchSlot ∧ ((∃ i v, a = .writeSlotIn i v ∧ s.cfg.nslot ≤ i) ∨
          (∃ i k, a = .writeSlotOutKind i k ∧ s.cfg.nslot ≤ i) ∨
          ∃ n, (a = .writeInCnt n ∨ a = .writeOutCnt n) ∧ s.cfg.nslot < n)) ∨
        (r = .inadmissibleStatusMap ∧ ∃ m, a = .writeStatusMap m ∧ m.admissible = false) ∨
        (r = .legacyCodesHaveNoLayout ∧ ∃ l, a = .writeLegacyCodes l ∧ l ≠ []) ∨
        (r = .tableIsReadOnly ∧ s.tableBuilt = true ∧ ∃ t, a = .buildTable t)) :
    (∀ q, a ≠ .start q) ∧ hostWrite a s = .refused r := by
  obtain ⟨rfl, ⟨i, v, rfl, hi⟩ | ⟨i, k, rfl, hi⟩ | ⟨n, rfl | rfl, hn⟩⟩ | ⟨rfl, m, rfl, hm⟩ | ⟨rfl, l, rfl, hl⟩ |
    ⟨rfl, hb, t, rfl⟩ := h
  · exact ⟨nofun, if_neg (Nat.not_lt.2 hi)⟩
  · exact ⟨nofun, if_neg (Nat.not_lt.2 hi)⟩
  · exact ⟨nofun, if_neg (Nat.not_le.2 hn)⟩
  · exact ⟨nofun, if_neg (Nat.not_le.2 hn)⟩
  · exact ⟨nofun, if_neg (by simp [hm])⟩
  · exact ⟨nofun, if_neg hl⟩
  · exact ⟨nofun, if_pos hb⟩

/-- Settles O55: each write is one action of the host port, guarded by its own bound. -/
theorem hostWritesLandBetweenOperations : Obligations.HostWritesLandBetweenOperations := by
  refine fun s e rest => ⟨fun ha => ?_, fun ha a hp hne => step_of_early_write ha hp hne⟩
  refine ⟨fun i v hp hi => ?_, fun n hp hn => ?_, fun i k hp hi => ?_, fun n hp hn => ?_, fun m hp hm => ?_,
    fun c hp => ?_, fun p hp => ?_, fun l hp => ?_, fun l hp => ?_, fun hp => ?_, fun t hp hb => ?_,
    fun a r hp hr => ?_⟩
  case refine_12 =>
    obtain ⟨hne, href⟩ := hostWrite_refused (s := { s with port := rest }) hr
    exact (step_of_hostWrite ha hp hne).trans href
  all_goals rw [step_of_hostWrite ha hp nofun]
  · exact if_pos hi
  · exact if_pos hn
  · exact if_pos hi
  · exact if_pos hn
  · exact if_pos hm
  · rfl
  · rfl
  · rfl
  · rfl
  · rfl
  · exact if_neg (by simp [hb])

/-- Settles O58: nothing is in progress, nothing is written, and the free map is admissible (log 6). -/
theorem resetIsSound : Obligations.ResetIsSound where
  pbufWf := Memory.nil_wf
  fbufWf := Memory.nil_wf
  midLow := by decide
  midHigh := by decide
  slotInLen := rfl
  slotOutLen := rfl
  inCntLe := Nat.zero_le _
  outCntLe := Nat.zero_le _
  rxcntLe := Nat.zero_le _
  plenLe := Nat.zero_le _
  flenLe := Nat.zero_le _
  tcLe := Nat.le_refl _
  pcLe := Nat.zero_le _
  scLe := Nat.zero_le _
  mapOk := freeStatusMap_admissible
  legacyOk := rfl
  payloadMaxLe := Nat.le_refl _
  idQuiet := nofun
  payloadCovers := fun a h => absurd h (Nat.not_lt_zero a)
  rxQuiet := fun _ => .inl rfl
  ctl := trivial
  ses := .inl rfl

/-- `FRM.ENC` in both formats: the status of a device frame is an operand. -/
theorem exec_frmEnc {i : Instr} {st : Option DeviceStatus} {s : State}
    (hi : (i = .frmEncHost ∧ st = none) ∨ (i = .frmEncDevice ∧ st = some s.opnd.status)) :
    exec i s =
      frameEncode s.opnd.id s.opnd.num st (startOp s) fun f t => .next { t with result := .frame f } := by
  obtain ⟨rfl, rfl⟩ | ⟨rfl, rfl⟩ := hi
  · exact exec_frmEncHost s
  · exact exec_frmEncDevice s

/-- Settles O34: the free payload can be read, so `FRM.ENC` meets one of its two outcomes. -/
theorem frameEncodeRunsOnAFreePayload : Obligations.FrameEncodeRunsOnAFreePayload := by
  rintro i e s t st rfl hi
  obtain ⟨p, hp, hlen, hle⟩ := readBytes_raised e s
  rw [exec_frmEnc (s := raised e s) hi]
  refine ⟨p, hp, hlen, hle, fun hfit => ?_, fun hlong => ?_⟩
  · rw [length_frameBytes, frameEncode_of_fits (s := startOp (raised e s)) hp hfit]
    rfl
  · rw [frameEncode_of_too_long (s := startOp (raised e s)) hp hlong, raised_startOp]

end Sys2Proof.Machine
end

section
/-! FLD: the static checks of `FE.RUN` and `FD.RUN` (spec/41_field_codec.md R100, R101, R109). -/

namespace Sys2Proof.Machine

open Safety

section
variable {kindOf : Nat → Option Kind} {i k : Nat} {c : FieldCode} {cs : List FieldCode} {kd : Kind}

/-- A suitable slot hands the pairing check to the next one. -/
theorem pairing_cons_of_accepts (hk : kindOf i = some kd) (ha : accepts c kd = true) :
    pairing kindOf i (c :: cs) = pairing kindOf (i + 1) cs := by
  simp only [pairing, hk, ha, if_true]

/-- An unsuitable slot is reported, with its kind if it has one (log 15). -/
theorem pairing_cons_of_unsuited (h : ∀ kd, kindOf i = some kd → accepts c kd = false) :
    pairing kindOf i (c :: cs) = some (.slot i c (kindOf i)) := by
  cases hk : kindOf i with
  | none => simp only [pairing, hk]
  | some kd => simp [pairing, hk, h kd hk]

theorem suits_cons_iff : suits kindOf (c :: cs) ↔
    (∃ kd, kindOf 0 = some kd ∧ accepts c kd = true) ∧ suits (fun k => kindOf (k + 1)) cs := by
  refine ⟨fun h => ⟨h 0 c rfl, fun k c' hc => h (k + 1) c' hc⟩, fun ⟨h0, h⟩ k c' hc => ?_⟩
  cases k with
  | zero => cases hc; exact h0
  | succ k => exact h k c' hc

theorem pairing_of_suits (h : suits (fun k => kindOf (k + i)) cs) : pairing kindOf i cs = none := by
  induction cs generalizing i with
  | nil => rfl
  | cons c cs ih =>
    obtain ⟨⟨kd, hk, ha⟩, htail⟩ := suits_cons_iff.1 h
    rw [pairing_cons_of_accepts (Nat.zero_add i ▸ hk) ha]
    exact ih (by simpa only [Nat.add_right_comm _ 1, Nat.add_assoc] using htail)

theorem pairing_of_first_unsuited (hc : cs[k]? = some c) (hpre : suits (fun k => kindOf (k + i)) (cs.take k))
    (h : ∀ kd, kindOf (k + i) = some kd → accepts c kd = false) :
    pairing kindOf i cs = some (.slot (k + i) c (kindOf (k + i))) := by
  induction cs generalizing i k with
  | nil => cases hc
  | cons c' cs ih =>
    cases k with
    | zero =>
      cases hc
      rw [Nat.zero_add] at h ⊢
      exact pairing_cons_of_unsuited h
    | succ k =>
      obtain ⟨⟨kd, hk, ha⟩, htail⟩ := suits_cons_iff.1 hpre
      rw [pairing_cons_of_accepts (Nat.zero_add i ▸ hk) ha]
      simp only [Nat.add_right_comm _ 1, Nat.add_assoc] at htail h ⊢
      exact ih hc htail h

end

section
variable {kindOf : Nat → Option Kind} {n : Nat} {t : List Byte} {info : ParamInfo}

theorem paramCheck_of_suits (hn : (typedCodes t).length = n) (h : suits kindOf (typedCodes t)) :
    paramCheck kindOf n t = none := by
  rw [paramCheck, if_pos hn]
  exact pairing_of_suits h

theorem paramCheck_of_refused (h : paramsRefused kindOf n (typedCodes t) info) :
    paramCheck kindOf n t = some info := by
  obtain ⟨hn, rfl⟩ | ⟨hn, k, c, hc, hpre, hbad, rfl⟩ := h
  · exact if_neg hn
  · rw [paramCheck, if_pos hn]
    exact pairing_of_first_unsuited hc hpre hbad

end

section
variable {k k' : Byte} {t : List Byte} {i : Nat}

theorem not_undecodableAt_nil : ¬ undecodableAt [] i := by
  rintro ⟨_, _, _, _, h, _⟩
  cases h

/-- The last token has no token after it. -/
theorem not_undecodableAt_single : ¬ undecodableAt [k] i := by
  rintro ⟨_, _, _, _, _, _, h, _⟩
  cases h

theorem undecodableAt_succ_iff : undecodableAt (k :: t) (i + 1) ↔ undecodableAt t i := by
  constructor
  · rintro ⟨a, b, j, x, ha, hva, hb, htb, hij, hx, hvx⟩
    obtain ⟨j, rfl⟩ : ∃ j', j = j' + 1 := ⟨j - 1, by omega⟩
    exact ⟨a, b, j, x, ha, hva, hb, htb, by omega, hx, hvx⟩
  · rintro ⟨a, b, j, x, ha, hva, hb, htb, hij, hx, hvx⟩
    exact ⟨a, b, j + 1, x, ha, hva, hb, htb, by omega, hx, hvx⟩

theorem undecodableAt_zero_iff : undecodableAt (k :: k' :: t) 0 ↔
    (isVariable k && isTyped k' && (k' :: t).any isVariable) = true := by
  simp only [Bool.and_eq_true, List.any_eq_true]
  constructor
  · rintro ⟨a, b, j, x, ha, hva, hb, htb, hij, hx, hvx⟩
    cases ha
    cases hb
    obtain ⟨j, rfl⟩ : ∃ j', j = j' + 1 := ⟨j - 1, by omega⟩
    exact ⟨⟨hva, htb⟩, x, List.mem_of_getElem? hx, hvx⟩
  · rintro ⟨⟨hva, htb⟩, x, hx, hvx⟩
    obtain ⟨j, hj⟩ := List.mem_iff_getElem?.1 hx
    exact ⟨k, k', j + 1, x, rfl, hva, rfl, htb, Nat.succ_pos j, hj, hvx⟩

theorem firstUndecodable_of_undecodableAt_zero (h : undecodableAt (k :: k' :: t) 0) :
    firstUndecodable i (k :: k' :: t) = some i :=
  if_pos (undecodableAt_zero_iff.1 h)

theorem firstUndecodable_of_not_undecodableAt_zero (h : ¬ undecodableAt (k :: k' :: t) 0) :
    firstUndecodable i (k :: k' :: t) = firstUndecodable (i + 1) (k' :: t) :=
  if_neg fun hc => h (undecodableAt_zero_iff.2 hc)

end

theorem firstUndecodable_of_decodable {t : List Byte} (h : ∀ j, ¬ undecodableAt t j) (i : Nat) :
    firstUndecodable i t = none := by
  induction t generalizing i with
  | nil => rfl
  | cons k t ih =>
    cases t with
    | nil => rfl
    | cons k' t =>
      rw [firstUndecodable_of_not_undecodableAt_zero (h 0)]
      exact ih (fun j hj => h (j + 1) (undecodableAt_succ_iff.2 hj)) _

/-- The leftmost undecodable token is the one reported (log 34). -/
theorem firstUndecodable_of_leftmost {t : List Byte} {j : Nat} (h : undecodableAt t j)
    (hfirst : ∀ j' < j, ¬ undecodableAt t j') (i : Nat) : firstUndecodable i t = some (i + j) := by
  induction t generalizing i j with
  | nil => exact absurd h not_undecodableAt_nil
  | cons k t ih =>
    cases t with
    | nil => exact absurd h not_undecodableAt_single
    | cons k' t =>
      cases j with
      | zero => exact firstUndecodable_of_undecodableAt_zero h
      | succ j =>
        rw [firstUndecodable_of_not_undecodableAt_zero (hfirst 0 (Nat.succ_pos j)),
          ih (undecodableAt_succ_iff.1 h) fun j' hj' hu => hfirst (j' + 1) (by omega) (undecodableAt_succ_iff.2 hu)]
        exact congrArg some (by omega)

section
variable {s : State} {t : List Byte} {e : Err}

theorem staticEnc_of_checks (h : encodeChecks s t) : staticEnc s t = none := by
  rw [staticEnc, paramCheck_of_suits h.1 h.2]; rfl

theorem staticEnc_of_refused (h : encodeRefused s t e) : staticEnc s t = some e := by
  obtain ⟨info, hinfo, rfl⟩ := h
  rw [staticEnc, paramCheck_of_refused hinfo]; rfl

theorem staticDec_of_checks (h : decodeChecks s t) : staticDec s t = none := by
  obtain ⟨hdec, hn, hsuits⟩ := h
  rw [staticDec, firstUndecodable_of_decodable hdec, paramCheck_of_suits hn hsuits]; rfl

theorem staticDec_of_refused (h : decodeRefused s t e) : staticDec s t = some e := by
  obtain ⟨i, hi, hfirst, rfl⟩ | ⟨hdec, info, hinfo, rfl⟩ := h
  · rw [staticDec, firstUndecodable_of_leftmost hi hfirst, Nat.zero_add]
  · rw [staticDec, firstUndecodable_of_decodable hdec, paramCheck_of_refused hinfo]; rfl

theorem startFieldEnc_of_checks (h : encodeChecks s t) (c : Bool) :
    startFieldEnc c t s = .next { s with act := .fieldEnc c, tmpl := t, tc := 0, pc := 0, sc := 0 } := by
  rw [startFieldEnc, staticEnc_of_checks h]

theorem startFieldEnc_of_refused (h : encodeRefused s t e) (c : Bool) :
    startFieldEnc c t s = .next (raised e { s with act := .fieldEnc c }) := by
  rw [startFieldEnc, staticEnc_of_refused h]; rfl

theorem startFieldDec_of_checks (h : decodeChecks s t) (c : Bool) :
    startFieldDec c t s =
      .next { s with act := .fieldDec c, tmpl := t, tc := 0, pc := 0, sc := 0, outOk := false } := by
  rw [startFieldDec, staticDec_of_checks h]

theorem startFieldDec_of_refused (h : decodeRefused s t e) (c : Bool) :
    startFieldDec c t s = .next (raised e { s with act := .fieldDec c }) := by
  rw [startFieldDec, staticDec_of_refused h]; rfl

end

theorem exec_feRun (s : State) : exec .feRun s = startFieldEnc false s.opnd.template (startOp s) := rfl

theorem exec_fdRun (s : State) : exec .fdRun s = startFieldDec false s.opnd.template (startOp s) := rfl

/-- Settles O10: the static checks look at the slots only, which the start of the operation leaves alone. -/
theorem fieldEncodeStarts : Obligations.FieldEncodeStarts := by
  refine fun s => ⟨fun h => ?_, fun e h => ?_⟩
  · rw [exec_feRun, startFieldEnc_of_checks (s := startOp s) h]
    rfl
  · rw [exec_feRun, startFieldEnc_of_refused (s := startOp s) h]
    rfl

/-- Settles O19: as O10, after the search for the leftmost undecodable token. -/
theorem fieldDecodeStarts : Obligations.FieldDecodeStarts := by
  refine fun s => ⟨fun h => ?_, fun e h => ?_⟩
  · rw [exec_fdRun, startFieldDec_of_checks (s := startOp s) h]
    rfl
  · rw [exec_fdRun, startFieldDec_of_refused (s := startOp s) h]
    rfl

end Sys2Proof.Machine
end

section
/-! The step: what it does in each activity while the host waits (spec/10_state.md R16 to R18). -/

namespace Sys2Proof.Machine

open Safety

section
variable {s : State} {c : Bool}

theorem step_fieldEnc_token {k : Byte} (ha : s.act = .fieldEnc c) (hw : hostWaits s = true)
    (hk : s.tmpl[s.tc]? = some k) : step s = exec (decodeTokenEnc k) s :=
  step_of_run (by rw [fetch_of_waits hw (by simp [ha])]; simp only [running, ha, hk])

theorem step_fieldEnc_end (ha : s.act = .fieldEnc c) (hw : hostWaits s = true) (hk : s.tmpl.length ≤ s.tc) :
    step s = finishFieldEnc c s :=
  step_of_done (by
    rw [fetch_of_waits hw (by simp [ha])]; simp only [running, ha, List.getElem?_eq_none hk])

theorem step_fieldDec_token {k : Byte} (ha : s.act = .fieldDec c) (hw : hostWaits s = true)
    (hk : s.tmpl[s.tc]? = some k) : step s = exec (decodeTokenDec k) s :=
  step_of_run (by rw [fetch_of_waits hw (by simp [ha])]; simp only [running, ha, hk])

theorem step_fieldDec_end (ha : s.act = .fieldDec c) (hw : hostWaits s = true) (hk : s.tmpl.length ≤ s.tc) :
    step s = finishFieldDec c s :=
  step_of_done (by
    rw [fetch_of_waits hw (by simp [ha])]; simp only [running, ha, List.getElem?_eq_none hk])

theorem step_unescape_marker {vc : VarCode} (ha : s.act = .unescape c vc) (hw : hostWaits s = true)
    (hb : s.fldRaw[s.fldJ]? = some 0x10#8) : step s = exec .esc s :=
  step_of_run (by
    rw [fetch_of_waits hw (by simp [ha])]; simp only [running, ha, escapeStep, hb]; rfl)

theorem step_callNextId (ha : s.act = .callNextId) (hw : hostWaits s = true) : step s = exec .sesNextId s :=
  step_of_run (by rw [fetch_of_waits hw (by simp [ha])]; simp only [running, ha])

theorem step_callRound (ha : s.act = .callRound) (hw : hostWaits s = true) : step s = callRound s :=
  step_of_done (by rw [fetch_of_waits hw (by simp [ha])]; simp only [running, ha])

theorem step_callEncode (ha : s.act = .callEncode) (hw : hostWaits s = true) : step s = callEncode s :=
  step_of_done (by rw [fetch_of_waits hw (by simp [ha])]; simp only [running, ha])

theorem step_callFrame (ha : s.act = .callFrame) (hw : hostWaits s = true) : step s = callFrame s :=
  step_of_done (by rw [fetch_of_waits hw (by simp [ha])]; simp only [running, ha])

theorem step_callWrite (ha : s.act = .callWrite) (hw : hostWaits s = true) : step s = callWrite s :=
  step_of_done (by rw [fetch_of_waits hw (by simp [ha])]; simp only [running, ha])

theorem step_callStatus (ha : s.act = .callStatus) (hw : hostWaits s = true) : step s = callStatus s :=
  step_of_done (by rw [fetch_of_waits hw (by simp [ha])]; simp only [running, ha])

end

/-- `FRM.DEC` is in a state that reads the channel: all its states but CHECK and DONE, PAYLOAD while bytes are missing. -/
def readsChannel (s : State) : Prop :=
  s.rxs ∈ [Rxs.waitStart, .hdr, .stmark, .status, .pterm, .bcc, .fterm] ∨ (s.rxs = .payload ∧ 0 < s.rxcnt)

theorem rxStep_of_readsChannel {s : State} (h : readsChannel s) (c : Bool) : rxStep c s = rxRead s := by
  obtain h | ⟨h, hcnt⟩ := h
  · simp only [List.mem_cons, List.not_mem_nil, or_false] at h
    obtain h | h | h | h | h | h | h := h <;> simp only [rxStep, h]
  · simp only [rxStep, h]
    exact if_neg (Nat.ne_of_gt hcnt)

section
variable {s : State} {c : Bool} {b : Byte} {rest : List ChanAnswer}

theorem fetch_frameDec (ha : s.act = .frameDec c) (hw : hostWaits s = true) : fetch s = rxStep c s := by
  rw [fetch_of_waits hw (by simp [ha])]; simp only [running, ha]

/-- The byte under the channel's head goes to the receive machine (R46, R226). -/
theorem fetch_byte (ha : s.act = .frameDec c) (hw : hostWaits s = true) (hr : readsChannel s)
    (hx : s.rx = .byte b :: rest) : fetch s = rxByte b { s with rx := rest, rxUsed := s.rxUsed + 1 } := by
  rw [fetch_frameDec ha hw, rxStep_of_readsChannel hr]
  simp only [rxRead, chanRead, hx]

/-- A structural byte where it is required is its row of the table (R68). -/
theorem structural_of_eq {want : Byte} {i : Instr} (h : decode (.wire8 want) = .ok i) (pos : Nat) (s : State) :
    structural want pos want s = .run i s := by
  simp only [structural, if_true, h]

theorem structural_of_ne {want : Byte} (h : b ≠ want) (pos : Nat) (s : State) :
    structural want pos b s = .done (.next (raised (.malformedFrame pos b (.byte want)) s)) :=
  if_neg h

end

/-- Settles O5: one fetch rule per decode space. -/
theorem stepRunsTheDecodedInstruction : Obligations.StepRunsTheDecodedInstruction := by
  refine ⟨fun s e r rest i ha hp hd => step_of_run (fetch_of_idle_request ha hp hd),
    fun s c k i ha hw hk hd => Except.ok.inj hd ▸ step_fieldEnc_token ha hw hk,
    fun s c k i ha hw hk hd => Except.ok.inj hd ▸ step_fieldDec_token ha hw hk,
    fun s c b rest i ha hw hr hx hd => ?_, fun s c b rest i ha hw hr hx hd => ?_,
    fun s c vc ha hw hb => step_unescape_marker ha hw hb, fun s ha hw => step_callNextId ha hw⟩
  · refine step_of_run ?_
    rw [fetch_byte ha hw (.inl (by simp [hr])) hx, ← Except.ok.inj hd]
    simp only [rxByte, hr]
  · simp only [List.mem_cons, Prod.mk.injEq, List.not_mem_nil, or_false] at hr
    refine step_of_run ?_
    obtain ⟨hr, rfl⟩ | ⟨hr, rfl⟩ | ⟨hr, rfl⟩ := hr
    · rw [fetch_byte ha hw (.inl (by simp [hr])) hx]
      simp only [rxByte, hr]
      exact structural_of_eq hd _ _
    · rw [fetch_byte ha hw (.inl (by simp [hr])) hx]
      simp only [rxByte, hr]
      exact structural_of_eq hd _ _
    · rw [fetch_byte ha hw (.inl (by simp [hr])) hx]
      simp only [rxByte, hr]
      exact structural_of_eq hd _ _

end Sys2Proof.Machine
end

section
/-! FRM, decoding: the receive machine state by state (spec/42_frame_codec.md R142 to R154). -/

namespace Sys2Proof.Machine

open Safety

theorem lenMin_eq (s : State) : lenMin s = if s.expst then 43 else 36 := rfl

theorem rxN_eq (s : State) : rxN s = s.rxlen.toNat - if s.expst then 43 else 36 := rfl

theorem rxQ_eq (s : State) : rxQ s = 4 + rxN s + if s.expst then 7 else 0 := rfl

section
variable {s : State} {l : Nat}

theorem exec_rxBusy_of_no_limit (h : s.cfg.busyLimit = none) :
    exec .rxBusy s = .next { s with busycnt := s.busycnt + 1 } := by
  change execRxBusy s = _
  simp only [execRxBusy, h]

theorem exec_rxBusy_of_limit (h : s.cfg.busyLimit = some l) :
    exec .rxBusy s = if s.busycnt + 1 > l then
        raise (.busyLimit (s.busycnt + 1)) { s with busycnt := s.busycnt + 1 }
      else .next { s with busycnt := s.busycnt + 1 } := by
  change execRxBusy s = _
  simp only [execRxBusy, h]

end

/-- Settles O36: only BUSY has more than one outcome, by the limit. -/
theorem frameDecodeStartsAndFirstByteActs : Obligations.FrameDecodeStartsAndFirstByteActs := by
  refine fun s => ⟨fun e => rfl, rfl, exec_rxBusy_of_no_limit, fun l h hle => ?_, fun l h hlt => ?_, rfl, fun b => rfl⟩
  · rw [exec_rxBusy_of_limit h]
    exact if_neg (Nat.not_lt.2 hle)
  · rw [exec_rxBusy_of_limit h]
    exact if_pos hlt

section
variable {s : State} {c : Bool} {b : Byte} {rest : List ChanAnswer}

theorem step_hdr (ha : s.act = .frameDec c) (hw : hostWaits s = true) (hr : s.rxs = .hdr)
    (hx : s.rx = .byte b :: rest) : step s = hdrByte b { s with rx := rest, rxUsed := s.rxUsed + 1 } :=
  step_of_done (by rw [fetch_byte ha hw (.inl (by simp [hr])) hx]; simp only [rxByte, hr])

theorem step_payload (ha : s.act = .frameDec c) (hw : hostWaits s = true) (hr : s.rxs = .payload)
    (hcnt : 0 < s.rxcnt) (hx : s.rx = .byte b :: rest) :
    step s = payloadByte b { s with rx := rest, rxUsed := s.rxUsed + 1 } :=
  step_of_done (by rw [fetch_byte ha hw (.inr ⟨hr, hcnt⟩) hx]; simp only [rxByte, hr])

theorem step_payload_end (ha : s.act = .frameDec c) (hw : hostWaits s = true) (hr : s.rxs = .payload)
    (hcnt : s.rxcnt = 0) : step s = payloadEnd s :=
  step_of_done (by rw [fetch_frameDec ha hw]; simp only [rxStep, hr, hcnt, if_true])

theorem step_status (ha : s.act = .frameDec c) (hw : hostWaits s = true) (hr : s.rxs = .status)
    (hx : s.rx = .byte b :: rest) : step s = statusByteIn b { s with rx := rest, rxUsed := s.rxUsed + 1 } :=
  step_of_done (by rw [fetch_byte ha hw (.inl (by simp [hr])) hx]; simp only [rxByte, hr])

theorem step_bcc (ha : s.act = .frameDec c) (hw : hostWaits s = true) (hr : s.rxs = .bcc)
    (hx : s.rx = .byte b :: rest) : step s = bccByte b { s with rx := rest, rxUsed := s.rxUsed + 1 } :=
  step_of_done (by rw [fetch_byte ha hw (.inl (by simp [hr])) hx]; simp only [rxByte, hr])

theorem step_check (ha : s.act = .frameDec c) (hw : hostWaits s = true) (hr : s.rxs = .check) :
    step s = checkFrame s :=
  step_of_done (by rw [fetch_frameDec ha hw]; simp only [rxStep, hr])

theorem step_done (ha : s.act = .frameDec c) (hw : hostWaits s = true) (hr : s.rxs = .done) :
    step s = finishFrameDec c s :=
  step_of_done (by rw [fetch_frameDec ha hw]; simp only [rxStep, hr])

/-- The states that require a structural byte, with that byte and the frame index it must have (R68). -/
theorem step_structural_ne {want : Byte} {pos : Nat} (ha : s.act = .frameDec c) (hw : hostWaits s = true)
    (hr : (s.rxs, want, pos) ∈ [(Rxs.stmark, 0x04#8, 4 + rxN s), (.pterm, 0x05#8, rxQ s), (.fterm, 0x03#8, rxQ s + 5)])
    (hx : s.rx = .byte b :: rest) (hb : b ≠ want) :
    step s = .next (raised (.malformedFrame pos b (.byte want)) { s with rx := rest, rxUsed := s.rxUsed + 1 }) := by
  refine step_of_done ?_
  simp only [List.mem_cons, Prod.mk.injEq, List.not_mem_nil, or_false] at hr
  obtain ⟨hr, rfl, rfl⟩ | ⟨hr, rfl, rfl⟩ | ⟨hr, rfl, rfl⟩ := hr
  · rw [fetch_byte ha hw (.inl (by simp [hr])) hx]
    simp only [rxByte, hr]
    exact structural_of_ne hb _ _
  · rw [fetch_byte ha hw (.inl (by simp [hr])) hx]
    simp only [rxByte, hr]
    exact structural_of_ne hb _ _
  · rw [fetch_byte ha hw (.inl (by simp [hr])) hx]
    simp only [rxByte, hr]
    exact structural_of_ne hb _ _

end

/-- Settles O37: the count of header bytes to come selects the register, and the last byte the length check. -/
theorem headerIsReadAndLengthChecked : Obligations.HeaderIsReadAndLengthChecked := by
  intro s c b rest ha hw hr hx
  rw [step_hdr ha hw hr hx]
  refine ⟨fun hcnt => if_pos hcnt, fun hcnt => ?_, fun min f hcnt hmin hf => ?_⟩
  · exact (if_neg (by simp [hcnt])).trans (if_pos hcnt)
  · subst hmin hf
    have hlast : ∀ {o₁ o₂ o₃ : Out}, (if s.rxcnt = 3 then o₁ else if s.rxcnt = 2 then o₂ else o₃) = o₃ := by
      simp [hcnt]
    exact ⟨fun hle => hlast.trans (if_neg (Nat.not_lt.2 hle)), fun hlt => hlast.trans (if_pos hlt)⟩

/-- Settles O38: every reading state of data stores its byte at the index its count gives. -/
theorem dataBytesAreStored : Obligations.DataBytesAreStored := by
  rintro s c n ha hw rfl
  refine ⟨fun hr hcnt => step_payload_end ha hw hr hcnt, fun b rest hx => ⟨fun j hr hcnt hj => ?_,
    fun j hr hcnt hj => ?_, fun hr hcnt => ?_, fun j hr hcnt hj => ?_, fun hr hcnt => ?_⟩⟩
  · subst hj
    exact step_payload ha hw hr hcnt hx
  · subst hj
    rw [step_status ha hw hr hx]
    simp [statusByteIn, rxN_eq, Nat.not_le.2 hcnt, hr]
  · rw [step_status ha hw hr hx]
    simp [statusByteIn, rxN_eq, hcnt, DeviceStatus.setByte]
  · subst hj
    rw [step_bcc ha hw hr hx]
    simp [bccByte, rxQ_eq, rxN_eq, Nat.not_le.2 hcnt, hr]
  · rw [step_bcc ha hw hr hx]
    simp [bccByte, rxQ_eq, rxN_eq, hcnt, Quad.setByte]

/-- Settles O39: the three rows store their byte, and a write changes one address. -/
theorem structuralBytesAreRequired : Obligations.StructuralBytesAreRequired := by
  rintro s n q rfl rfl
  exact ⟨rfl, rfl, rfl, fun a x b hne => Memory.read_write_other hne s.fbuf b,
    fun c b rest want pos ha hw hx hr hb => step_structural_ne ha hw hr hx hb⟩

/-- Settles O40: a reading step looks at the head of the channel. -/
theorem channelWaitsAndFails : Obligations.ChannelWaitsAndFails := by
  intro s c ha hw hr
  have hfetch : fetch s = rxRead s := (fetch_frameDec ha hw).trans (rxStep_of_readsChannel hr c)
  refine ⟨fun hx => step_of_done ?_, fun rest hx => step_of_done ?_⟩
  · rw [hfetch]
    simp only [rxRead, chanRead, hx]
  · rw [hfetch]
    simp only [rxRead, chanRead, hx]
    rfl

theorem checkFrame_of_reads {s : State} {h p : List Byte} (hh : Memory.readBytes s.fbuf 0 4 = some h)
    (hp : Memory.readBytes s.pbuf 0 (rxN s) = some p) :
    checkFrame s =
      if bccDigits s.cfg.coverage h p (rxStatus s) = s.rxBcc then .next { s with rxs := .done }
      else raise (.checksumMismatch (bccDigits s.cfg.coverage h p (rxStatus s)) s.rxBcc) s := by
  rw [checkFrame, withFbuf_eq hh, withPbuf_eq hp]

theorem acceptFrame_of_expst {s : State} (h : s.expst = true) :
    acceptFrame s = { s with sr := s.rxSt, srv := true, idOk := true } := by
  simp [acceptFrame, h]

theorem acceptFrame_of_no_expst {s : State} (h : s.expst = false) : acceptFrame s = { s with idOk := true } := by
  simp [acceptFrame, h]

theorem rxStatus_of_expst {s : State} (h : s.expst = true) : rxStatus s = some s.rxSt := if_pos h

theorem rxStatus_of_no_expst {s : State} (h : s.expst = false) : rxStatus s = none := if_neg (by simp [h])

/-- Settles O41: CHECK compares, DONE accepts. -/
theorem frameIsCheckedThenAccepted : Obligations.FrameIsCheckedThenAccepted := by
  rintro s c h p st ha hw rfl
  refine ⟨fun hr hh hp => ?_, fun hr hc hp => ⟨fun he => ?_, fun he => ?_⟩, fun hr hc he => ?_⟩
  · rw [step_check ha hw hr, checkFrame_of_reads hh hp]
    exact ⟨fun heq => if_pos heq, fun hne => if_neg hne⟩
  · subst hc
    rw [step_done ha hw hr, finishFrameDec, if_neg (by decide), withPayload_eq hp, acceptFrame_of_expst he,
      rxStatus_of_expst he]
    rfl
  · subst hc
    rw [step_done ha hw hr, finishFrameDec, if_neg (by decide), withPayload_eq hp, acceptFrame_of_no_expst he,
      rxStatus_of_no_expst he]
    rfl
  · subst hc
    rw [step_done ha hw hr, finishFrameDec, if_pos rfl, acceptFrame_of_expst he]

end Sys2Proof.Machine
end

section
/-! SEQ: `SES.CALL` stage by stage (spec/44_command_session.md R201, R203), and the end of `FD.RUN` (spec/41_field_codec.md
R110, R119). -/

namespace Sys2Proof.Machine

open Safety

/-- Settles O27: the rest of the payload decides, then who started the operation. -/
theorem fieldDecodeEnds : Obligations.FieldDecodeEnds := by
  intro s c ha hw hk
  rw [step_fieldDec_end ha hw hk]
  refine ⟨fun hne => if_pos hne, fun heq hc => ?_, fun heq hc => ?_⟩
  · subst hc
    exact if_neg (not_not.2 heq)
  · subst hc
    exact if_neg (not_not.2 heq)

/-- Settles O48: the lookup decides. -/
theorem callLooksUpItsCommand : Obligations.CallLooksUpItsCommand := by
  intro s
  change (∀ d, _ → execSesCall s = _) ∧ (_ → execSesCall s = _)
  refine ⟨fun d hd => ?_, fun hnone => ?_⟩
  · simp only [execSesCall, hd]
    rfl
  · simp only [execSesCall, hnone]
    rfl

theorem finishFieldEnc_call_of_fits {s : State} (h : s.pc ≤ s.cfg.payloadMax) :
    finishFieldEnc true s = .next { s with plen := s.pc, act := .callNextId } :=
  if_neg (Nat.not_lt.2 h)

theorem finishFieldEnc_call_of_too_long {s : State} (h : s.cfg.payloadMax < s.pc) :
    finishFieldEnc true s = .next (raised (.payloadTooLong s.pc) { s with plen := s.pc }) :=
  if_pos h

/-- Settles O49: one rule per stage; the frame is the host frame of O32 with the taken id. -/
theorem callSendsOneFrameThenReads : Obligations.CallSendsOneFrameThenReads := by
  intro s hw
  refine ⟨fun ha => step_callRound ha hw, fun ha h => ?_, fun e ha h => ?_, fun ha hk hle => ?_, fun ha hk hlt => ?_,
    fun p f ha hp hle hf => ?_, fun f ha hf => ?_⟩
  · rw [step_callEncode ha hw, callEncode, startFieldEnc_of_checks h]
  · rw [step_callEncode ha hw, callEncode, startFieldEnc_of_refused h]
  · rw [step_fieldEnc_end ha hw hk, finishFieldEnc_call_of_fits hle]
  · rw [step_fieldEnc_end ha hw hk, finishFieldEnc_call_of_too_long hlt]
  · rw [step_callFrame ha hw, callFrame, frameEncode_of_fits (st := none) hp hle, hf, length_frameBytes]
    rfl
  · rw [step_callWrite ha hw, callWrite, withFbuf_eq hf]
    rfl

section
variable {s : State}

theorem callStatus_of_retry (hp : predHolds s.cfg.retryPred s.sr = true)
    (hl : s.cfg.retryLimit = none ∨ ∃ l, s.cfg.retryLimit = some l ∧ s.retrycnt + 1 ≤ l) :
    callStatus s = .next { s with ses := .retryRequested, retrycnt := s.retrycnt + 1, act := .callRound } := by
  rw [callStatus, if_pos hp]
  obtain hl | ⟨l, hl, hle⟩ := hl
  · rw [hl]
  · rw [hl]
    exact if_neg (Nat.not_lt.2 hle)

theorem callStatus_of_retry_limit {l : Nat} (hp : predHolds s.cfg.retryPred s.sr = true)
    (hl : s.cfg.retryLimit = some l) (hlt : l < s.retrycnt + 1) :
    callStatus s = .next (raised (.retryLimit s.sr)
      { s with ses := .retryRequested, retrycnt := s.retrycnt + 1 }) := by
  rw [callStatus, if_pos hp, hl]
  exact if_pos hlt

theorem callStatus_of_error (hp : predHolds s.cfg.retryPred s.sr = false) (he : hasErr s.cfg.statusMap s.sr = true) :
    callStatus s = .next (raised (.deviceStatusError s.sr) s) := by
  rw [callStatus, if_neg (by simp [hp]), if_pos he]
  rfl

theorem callStatus_of_good (hp : predHolds s.cfg.retryPred s.sr = false) (he : hasErr s.cfg.statusMap s.sr = false) :
    callStatus s = startFieldDec true s.desc.deviceFormat s := by
  rw [callStatus, if_neg (by simp [hp]), if_neg (by simp [he])]

end

/-- Settles O50: the retry predicate, the error flags and the static checks are tested in this order. -/
theorem responseStatusDecidesTheCall : Obligations.ResponseStatusDecidesTheCall := by
  intro s hw ha
  rw [step_callStatus ha hw]
  refine ⟨callStatus_of_retry, fun l => callStatus_of_retry_limit, callStatus_of_error, fun e hp he h => ?_,
    fun hp he h => ?_⟩
  · rw [callStatus_of_good hp he, startFieldDec_of_refused h]
  · rw [callStatus_of_good hp he, startFieldDec_of_checks h]

end Sys2Proof.Machine
end

section
/-! FLD: the outcomes of a typed token that raise, the frame of the encoding tokens, and `FE.RUN` as a whole
(spec/41_field_codec.md R100 to R103, R110, R111). -/

namespace Sys2Proof.Machine

open Safety

theorem exec_feLit (k : Byte) (s : State) : exec (.feLit k) s = emit [k] s := rfl

/-- Bytes that would pass the end of the buffer are not written (R43; the length reported: log 13). -/
theorem emit_of_too_long {bs : List Byte} {s : State} (h : 1024 < s.pc + bs.length) :
    emit bs s = .next (raised (.payloadTooLong (s.pc + bs.length)) s) :=
  if_pos h

/-- Settles O11: a literal is emitted as the one byte it is. -/
theorem literalTokenIsEmittedRaw : Obligations.LiteralTokenIsEmittedRaw :=
  fun _ k => ⟨emit_of_fits (bs := [k]), emit_of_too_long (bs := [k])⟩

section
variable {code : FieldCode} {f : SlotVal → Option (List Byte)} {s : State} {v : SlotVal}

theorem feTyped_of_no_value (hv : slotInVal s s.sc = none) :
    feTyped code f s = .next (raised (.paramMismatch (.slot s.sc code none)) s) := by
  simp only [feTyped, hv, raise]

theorem feTyped_of_unsuited (hv : slotInVal s s.sc = some v) (ha : accepts code v.kind = false) :
    feTyped code f s = .next (raised (.paramMismatch (.slot s.sc code (some v.kind))) s) := by
  simp only [feTyped, hv, ha, raise, Bool.false_eq_true, if_false]

theorem feTyped_of_too_long {bs : List Byte} (hv : slotInVal s s.sc = some v) (ha : accepts code v.kind = true)
    (hf : f v = some bs) (hlong : 1024 < s.pc + bs.length) :
    feTyped code f s = .next (raised (.payloadTooLong (s.pc + bs.length)) { s with sc := s.sc + 1 }) := by
  simp only [feTyped, hv, ha, hf, if_true]
  exact emit_of_too_long hlong

end

/-- An unsuitable placeholder is found after the width (log 31). -/
theorem fdTyped_of_unsuited {code : FieldCode} {f : List Byte → Kind → State → Out} {s : State} {p : List Byte}
    {w : Nat} (hp : Memory.readBytes s.pbuf 0 s.plen = some p)
    (hw : fieldWidth code (s.tmpl.drop (s.tc + 1)) p s.pc = .ok w)
    (hk : ∀ k, slotOutKind s s.sc = some k → accepts code k = false) :
    fdTyped code f s =
      .next (raised (.paramMismatch (.slot s.sc code (slotOutKind s s.sc))) { s with pc := s.pc + w }) := by
  rw [fdTyped, withPayload_eq hp, hw]
  cases hkind : slotOutKind s s.sc with
  | none => simp only [raise]
  | some k => simp only [hk k hkind, raise, Bool.false_eq_true, if_false]

theorem exec_fdB (s : State) : exec .fdB s = fdTyped .b (fun raw _ t => resumeField .b raw 0 [] t) s := rfl

theorem exec_fdT (s : State) : exec .fdT s = fdTyped .t (fun raw _ t => resumeField .t raw 0 [] t) s := rfl

theorem exec_fdQ (s : State) : exec .fdQ s = fdTyped .q (fieldDate .q layoutQ fun _ => 0) s := rfl

theorem exec_fdQs (s : State) : exec .fdQs s = fdTyped .qs (fieldDate .qs layoutQs fun raw => num2 raw 15) s := rfl

/-- The five typed codes with their instructions under `FE.RUN` and under `FD.RUN` (R69). -/
def typedInstrs : List (Instr × Instr × FieldCode) :=
  [(.feW, .fdW, .w), (.feB, .fdB, .b), (.feT, .fdT, .t), (.feQ, .fdQ, .q), (.feQs, .fdQs, .qs)]

section
variable {i j : Instr} {code : FieldCode}

theorem exec_of_typedInstrs_enc (h : (i, j, code) ∈ typedInstrs) (s : State) :
    exec i s = feTyped code (fieldBytes s.cfg code) s := by
  simp only [typedInstrs, List.mem_cons, Prod.mk.injEq, List.not_mem_nil, or_false] at h
  obtain ⟨rfl, -, rfl⟩ | ⟨rfl, -, rfl⟩ | ⟨rfl, -, rfl⟩ | ⟨rfl, -, rfl⟩ | ⟨rfl, -, rfl⟩ := h
  all_goals rfl

theorem exec_of_typedInstrs_dec (h : (i, j, code) ∈ typedInstrs) (s : State) :
    ∃ f, exec j s = fdTyped code f s := by
  simp only [typedInstrs, List.mem_cons, Prod.mk.injEq, List.not_mem_nil, or_false] at h
  obtain ⟨-, rfl, rfl⟩ | ⟨-, rfl, rfl⟩ | ⟨-, rfl, rfl⟩ | ⟨-, rfl, rfl⟩ | ⟨-, rfl, rfl⟩ := h
  · exact ⟨_, exec_fdW s⟩
  · exact ⟨_, exec_fdB s⟩
  · exact ⟨_, exec_fdT s⟩
  · exact ⟨_, exec_fdQ s⟩
  · exact ⟨_, exec_fdQs s⟩

end

/-- Settles O16: one rule per outcome, the same for the five codes. -/
theorem typedTokensRaiseOnTheirSlotOrField : Obligations.TypedTokensRaiseOnTheirSlotOrField := by
  intro s i j code h
  obtain ⟨f, hj⟩ := exec_of_typedInstrs_dec h s
  rw [exec_of_typedInstrs_enc h, hj]
  exact ⟨feTyped_of_no_value, fun v => feTyped_of_unsuited, fun v bs => feTyped_of_too_long,
    fun p e => fdTyped_of_no_width, fun p w => fdTyped_of_unsuited⟩

/-- Settles O17: the two ways a token can go, for a literal and for a typed code. -/
theorem encodingTokensStoreOnlyAtPc : Obligations.EncodingTokensStoreOnlyAtPc := by
  intro i s t hi h
  obtain hi | ⟨k, rfl⟩ := hi
  · obtain ⟨j, code, hmem⟩ : ∃ j code, (i, j, code) ∈ typedInstrs := by
      simp only [List.mem_cons, List.not_mem_nil, or_false] at hi
      obtain rfl | rfl | rfl | rfl | rfl := hi <;> simp [typedInstrs]
    have hlit : ¬ ∃ k, i = .feLit k := by
      rintro ⟨k, rfl⟩
      simp [typedInstrs] at hmem
    rw [exec_of_typedInstrs_enc hmem] at h
    obtain ⟨e, rfl⟩ | ⟨e, rfl⟩ | ⟨v, bs, -, -, -, -, rfl⟩ := feTyped_cases h
    · exact .inl ⟨e, s.sc, rfl, .inl rfl⟩
    · exact .inl ⟨e, s.sc + 1, rfl, .inr rfl⟩
    · exact .inr ⟨rfl, (if_neg hlit).symm, Nat.le_add_right _ _,
        fun a ha => Memory.read_writeBytes_other s.pbuf s.pc bs ha⟩
  · obtain ⟨-, rfl⟩ | rfl := emit_cases h
    · exact .inr ⟨rfl, (if_pos ⟨k, rfl⟩).symm, Nat.le_add_right _ _,
        fun a ha => Memory.read_writeBytes_other s.pbuf s.pc [k] ha⟩
    · exact .inl ⟨_, s.sc, rfl, .inl rfl⟩

/-- Two runs written one after the other are one run. -/
theorem Memory.writeBytes_append (m : Memory) (a : Nat) (bs cs : List Byte) :
    Memory.writeBytes (Memory.writeBytes m a bs) (a + bs.length) cs = Memory.writeBytes m a (bs ++ cs) := by
  induction bs generalizing m a with
  | nil => rfl
  | cons b bs ih =>
    rw [List.cons_append, Memory.writeBytes, Memory.writeBytes, ← ih, List.length_cons, Nat.add_right_comm,
      Nat.add_assoc]

theorem classify_lit_eq {k b : Byte} (h : classify k = .lit b) : k = b ∧ decodeTokenEnc k = .feLit b := by
  unfold classify at h
  split_ifs at h
  obtain rfl := Token.lit.inj h
  exact ⟨rfl, by simp [decodeTokenEnc, *]⟩

/-- A typed code of a template is decoded to the instruction of its code. -/
theorem exec_decodeTokenEnc_of_typed {k : Byte} {code : FieldCode} (h : classify k = .typed code) (s : State) :
    exec (decodeTokenEnc k) s = feTyped code (fieldBytes s.cfg code) s := by
  unfold classify at h
  split_ifs at h <;> (obtain rfl := Token.typed.inj h; subst k; rfl)

section
variable {c : Config.Configuration} {k : Byte} {t : List Byte} {vs : List SlotVal} {bs : List Byte}

theorem encodeAll_lit {b : Byte} (hk : classify k = .lit b) (h : encodeAll c (k :: t) vs = some bs) :
    ∃ cs, encodeAll c t vs = some cs ∧ bs = b :: cs := by
  simp only [encodeAll, hk, Option.map_eq_some_iff] at h
  obtain ⟨cs, hcs, rfl⟩ := h
  exact ⟨cs, hcs, rfl⟩

theorem encodeAll_typed {code : FieldCode} (hk : classify k = .typed code) (h : encodeAll c (k :: t) vs = some bs) :
    ∃ v vs' f cs, vs = v :: vs' ∧ accepts code v.kind = true ∧ fieldBytes c code v = some f ∧
      encodeAll c t vs' = some cs ∧ bs = f ++ cs := by
  cases vs with
  | nil => simp [encodeAll, hk] at h
  | cons v vs' =>
    simp only [encodeAll, hk] at h
    split at h
    case isFalse => cases h
    case isTrue ha =>
      split at h
      case h_1 f cs hf hcs => exact ⟨v, vs', f, cs, rfl, ha, hf, hcs, (Option.some.inj h).symm⟩
      case h_2 => cases h

end

/-- Every byte of a token's text is the text of R102: the steps of the loop from token `tc` on write what the rest of the
template makes of the rest of the slots. -/
theorem runSteps_fieldEnc {c : Bool} {t : List Byte} {s : State} {vs : List SlotVal} {bs : List Byte}
    (ha : s.act = .fieldEnc c) (hw : hostWaits s = true) (ht : s.tmpl.drop s.tc = t) (htc : s.tc ≤ s.tmpl.length)
    (hvs : ∀ k v, vs[k]? = some v → slotInVal s (s.sc + k) = some v) (henc : encodeAll s.cfg t vs = some bs)
    (hfit : s.pc + bs.length ≤ 1024) :
    runSteps t.length s = .next { s with
      pbuf := Memory.writeBytes s.pbuf s.pc bs, tc := s.tmpl.length, pc := s.pc + bs.length, sc := s.sc + vs.length } := by
  induction t generalizing s vs bs with
  | nil =>
    have hend : s.tc = s.tmpl.length := Nat.le_antisymm htc (List.drop_eq_nil_iff.1 ht)
    cases vs with
    | nil =>
      obtain rfl := Option.some.inj henc
      rw [← hend]
      rfl
    | cons v vs => cases henc
  | cons k t ih =>
    have hk : s.tmpl[s.tc]? = some k := by rw [← List.head?_drop, ht]; rfl
    have ht' : s.tmpl.drop (s.tc + 1) = t := by rw [← List.tail_drop, ht]; rfl
    have htc' : s.tc + 1 ≤ s.tmpl.length := (List.getElem?_eq_some_iff.1 hk).1
    have hstep := step_fieldEnc_token ha hw hk
    cases hcls : classify k with
    | lit b =>
      obtain ⟨cs, hcs, rfl⟩ := encodeAll_lit hcls henc
      rw [List.length_cons] at hfit
      rw [(classify_lit_eq hcls).2, exec_feLit, emit_of_fits (by simpa using by omega)] at hstep
      have hrest := ih (s := { s with pbuf := Memory.writeBytes s.pbuf s.pc [b], pc := s.pc + [b].length, tc := s.tc + 1 })
        ha hw ht' htc' hvs hcs (by change s.pc + 1 + cs.length ≤ 1024; omega)
      rw [List.length_cons, runSteps_succ hstep, hrest]
      simp [Memory.writeBytes, Nat.add_assoc, Nat.add_comm 1]
    | typed code =>
      obtain ⟨v, vs', f, cs, rfl, hacc, hf, hcs, rfl⟩ := encodeAll_typed hcls henc
      rw [List.length_append] at hfit
      rw [exec_decodeTokenEnc_of_typed hcls, feTyped_of_fits (hvs 0 v rfl) hacc hf (by omega)] at hstep
      have hvs' : ∀ j w, vs'[j]? = some w → slotInVal s (s.sc + 1 + j) = some w := fun j w hw => by
        have := hvs (j + 1) w (by simpa using hw)
        rwa [Nat.add_assoc, Nat.add_comm 1 j]
      have hrest := ih (s := { s with
          pbuf := Memory.writeBytes s.pbuf s.pc f, pc := s.pc + f.length, tc := s.tc + 1, sc := s.sc + 1 })
        ha hw ht' htc' hvs' hcs (by simpa [Nat.add_assoc] using hfit)
      rw [List.length_cons, runSteps_succ hstep, hrest]
      simp [Memory.writeBytes_append, Nat.add_assoc, Nat.add_comm 1]

/-- Settles O18: the loop lemma from token 0, and the end of the operation. -/
theorem fieldEncodeRunMakesThePayload : Obligations.FieldEncodeRunMakesThePayload := by
  intro s c vs bs ha hw htc hpc hsc hvs henc hlen
  have hrun := runSteps_fieldEnc (t := s.tmpl) ha hw (by rw [htc]; rfl) (by omega)
    (fun k v hk => by rw [hsc, Nat.zero_add]; exact hvs k v hk) henc (by omega)
  simp only [hpc, hsc, Nat.zero_add] at hrun
  refine ⟨_, hrun, rfl, Memory.readBytes_writeBytes s.pbuf 0 bs (by rw [Nat.zero_add]; exact hlen), fun hc => ?_,
    fun hc hle => ?_⟩
  · subst hc
    exact (step_fieldEnc_end (c := false) (by exact ha) (by exact hw) (by exact Nat.le_refl _)).trans rfl
  · subst hc
    exact (step_fieldEnc_end (c := true) (by exact ha) (by exact hw) (by exact Nat.le_refl _)).trans
      (finishFieldEnc_call_of_fits (by exact hle))

end Sys2Proof.Machine
end

section
/-! FLD, decoding: variable-width fields and the escape pair (spec/41_field_codec.md R110, R115, R116). -/

namespace Sys2Proof.Machine

open Safety

theorem plainRun_of_no_marker {bs : List Byte} (h : 0x10#8 ∉ bs) : plainRun bs = bs := by
  refine List.takeWhile_eq_self_iff.2 fun b hb => ?_
  rw [bne_iff_ne]
  rintro rfl
  exact h hb

/-- The bytes before the first marker. -/
theorem plainRun_of_marker {bs : List Byte} {d : Nat} (hd : bs[d]? = some 0x10#8) (hpre : 0x10#8 ∉ bs.take d) :
    plainRun bs = bs.take d := by
  obtain ⟨hlt, hval⟩ := List.getElem?_eq_some_iff.1 hd
  have hsplit : bs = bs.take d ++ 0x10#8 :: bs.drop (d + 1) := by
    rw [← hval, List.getElem_cons_drop, List.take_append_drop]
  have hplain : ∀ b ∈ bs.take d, (b != Config.esc) = true := fun b hb => by
    rw [bne_iff_ne]
    rintro rfl
    exact hpre hb
  conv_lhs => rw [hsplit]
  rw [plainRun, List.takeWhile_append_of_pos hplain, List.takeWhile_cons_of_neg (by decide), List.append_nil]

section
variable {vc : VarCode} {u : List Byte} {s : State} {k : Kind}

theorem finishField_of_value {v : SlotVal} (hk : slotOutKind s s.sc = some k) (hv : valueOf s.cfg vc k u = some v) :
    finishField vc u s = .next { s with
      tc := s.tc + 1, sc := s.sc + 1, act := .fieldDec s.act.inCall
      slotOut := s.slotOut.set s.sc (some ⟨k, some v⟩) } := by
  simp only [finishField, hk, hv]
  rfl

theorem finishField_of_no_value (hk : slotOutKind s s.sc = some k) (hv : valueOf s.cfg vc k u = none) :
    finishField vc u s = .next (raised (.decodeMismatch (.parseText vc.code u)) s) := by
  simp only [finishField, hk, hv]
  rfl

end

section
variable {vc : VarCode} {raw u : List Byte} {j : Nat} {s : State}

theorem resumeField_of_no_marker (h : 0x10#8 ∉ raw.drop j) :
    resumeField vc raw j u s = finishField vc (u ++ raw.drop j) s :=
  if_pos (by rw [plainRun_of_no_marker h])

theorem resumeField_of_marker {d : Nat} (hd : (raw.drop j)[d]? = some 0x10#8) (hpre : 0x10#8 ∉ (raw.drop j).take d) :
    resumeField vc raw j u s = .next { s with
      act := .unescape s.act.inCall vc, fldRaw := raw, fldJ := j + d, fldU := u ++ (raw.drop j).take d } := by
  have hlt : d < (raw.drop j).length := (List.getElem?_eq_some_iff.1 hd).1
  have hlen : ((raw.drop j).take d).length = d := by rw [List.length_take]; omega
  rw [resumeField, plainRun_of_marker hd hpre, hlen, if_neg (by omega)]

/-- Between two markers of a field only the index and the text move. -/
theorem resumeField_of_next_marker {c : Bool} {d : Nat} (ha : s.act = .unescape c vc)
    (hd : (s.fldRaw.drop j)[d]? = some 0x10#8) (hpre : 0x10#8 ∉ (s.fldRaw.drop j).take d) :
    resumeField vc s.fldRaw j u s = .next { s with fldJ := j + d, fldU := u ++ (s.fldRaw.drop j).take d } := by
  rw [resumeField_of_marker hd hpre, ha]
  rfl

end

theorem valueT_text (u : List Byte) : valueT .text u = some (.text u) := rfl

theorem valueT_char_of_length_ne {u : List Byte} (h : u.length ≠ 1) : valueT .char u = none := by
  match u with
  | [] => rfl
  | [c] => exact absurd rfl h
  | _ :: _ :: _ => rfl

section
variable {s : State} {p raw : List Byte} {w : Nat} {k : Kind}

/-- A `T` or `B` field whose placeholder suits it is scanned for escape markers from its start. -/
theorem exec_fdT_of_width (hp : Memory.readBytes s.pbuf 0 s.plen = some p)
    (hw : fieldWidth .t (s.tmpl.drop (s.tc + 1)) p s.pc = .ok w) (hraw : raw = (p.drop s.pc).take w)
    (hk : slotOutKind s s.sc = some k) (ha : accepts .t k = true) :
    exec .fdT s = resumeField .t raw 0 [] { s with pc := s.pc + w } := by
  rw [exec_fdT, fdTyped_of_width hp hw hk ha, hraw]

theorem exec_fdB_of_width (hp : Memory.readBytes s.pbuf 0 s.plen = some p)
    (hw : fieldWidth .b (s.tmpl.drop (s.tc + 1)) p s.pc = .ok w) (hraw : raw = (p.drop s.pc).take w)
    (hk : slotOutKind s s.sc = some k) (ha : accepts .b k = true) :
    exec .fdB s = resumeField .b raw 0 [] { s with pc := s.pc + w } := by
  rw [exec_fdB, fdTyped_of_width hp hw hk ha, hraw]

end

section
variable {vc : VarCode} {raw : List Byte} {s : State} {k : Kind}

/-- A field without a marker is its own text. -/
theorem resumeField_start_of_value {v : SlotVal} (h : 0x10#8 ∉ raw) (hk : slotOutKind s s.sc = some k)
    (hv : valueOf s.cfg vc k raw = some v) :
    resumeField vc raw 0 [] s = .next { s with
      tc := s.tc + 1, sc := s.sc + 1, act := .fieldDec s.act.inCall
      slotOut := s.slotOut.set s.sc (some ⟨k, some v⟩) } :=
  (resumeField_of_no_marker (j := 0) h).trans (finishField_of_value hk hv)

theorem resumeField_start_of_no_value (h : 0x10#8 ∉ raw) (hk : slotOutKind s s.sc = some k)
    (hv : valueOf s.cfg vc k raw = none) :
    resumeField vc raw 0 [] s = .next (raised (.decodeMismatch (.parseText vc.code raw)) s) :=
  (resumeField_of_no_marker (j := 0) h).trans (finishField_of_no_value hk hv)

theorem resumeField_start_of_marker {j : Nat} (hj : raw[j]? = some 0x10#8) (hpre : 0x10#8 ∉ raw.take j) :
    resumeField vc raw 0 [] s = .next { s with
      act := .unescape s.act.inCall vc, fldRaw := raw, fldJ := j, fldU := raw.take j } := by
  rw [resumeField_of_marker (j := 0) (d := j) hj hpre, Nat.zero_add]
  rfl

end

/-- Settles O23: the field is its own text, or stops at its first marker. -/
theorem tFieldDecodes : Obligations.TFieldDecodes := by
  intro s p raw w hp hw hraw
  refine ⟨fun hno hk => ?_, fun c hc hne hk => ?_, fun hno hlen hk => ?_, fun j hj hpre hk => ?_⟩
  · rw [exec_fdT_of_width hp hw hraw hk rfl]
    exact resumeField_start_of_value (s := { s with pc := s.pc + w }) hno hk (valueT_text raw)
  · rw [exec_fdT_of_width hp hw hraw hk rfl]
    have hno : 0x10#8 ∉ raw := by simpa [hc] using hne.symm
    exact resumeField_start_of_value (s := { s with pc := s.pc + w }) hno hk (by rw [hc]; rfl)
  · rw [exec_fdT_of_width hp hw hraw hk rfl]
    exact resumeField_start_of_no_value (s := { s with pc := s.pc + w }) hno hk (valueT_char_of_length_ne hlen)
  · obtain hk | hk := hk
    · rw [exec_fdT_of_width hp hw hraw hk rfl]
      exact resumeField_start_of_marker hj hpre
    · rw [exec_fdT_of_width hp hw hraw hk rfl]
      exact resumeField_start_of_marker hj hpre

section
variable {s : State} {x : Byte}

theorem exec_esc_of_end (h : s.fldRaw.length ≤ s.fldJ + 1) :
    exec .esc s = .next (raised (.decodeMismatch (.escape (s.pc - s.fldRaw.length + s.fldJ) none)) s) := by
  change execEsc s = _
  simp only [execEsc, List.getElem?_eq_none h]
  rfl

theorem exec_esc_of_low (hx : s.fldRaw[s.fldJ + 1]? = some x) (hlow : x.toNat < 64) :
    exec .esc s =
      .next (raised (.decodeMismatch (.escape (s.pc - s.fldRaw.length + s.fldJ + 1) (some x))) s) := by
  change execEsc s = _
  simp only [execEsc, hx]
  exact if_pos hlow

theorem exec_esc_of_pair (hx : s.fldRaw[s.fldJ + 1]? = some x) (hge : 64 ≤ x.toNat) :
    exec .esc s = resumeField s.act.varCode s.fldRaw (s.fldJ + 2) (s.fldU ++ [x - 64#8]) s := by
  change execEsc s = _
  simp only [execEsc, hx]
  exact if_neg (Nat.not_lt.2 hge)

end

/-- Settles O24: the byte after the marker decides, then whether another marker follows. -/
theorem escapePairDecodes : Obligations.EscapePairDecodes := by
  intro s c ha
  refine ⟨exec_esc_of_end, fun x hx hlow => exec_esc_of_low hx hlow, fun x hx hge hno hk => ?_,
    fun x j hx hge hj hpre => ?_⟩
  · rw [exec_esc_of_pair hx hge, ha, Activity.varCode, resumeField_of_no_marker hno,
      finishField_of_value (vc := .t) hk (valueT_text _), ha]
    rfl
  · have hvc : s.act.varCode = .t := by rw [ha]; rfl
    rw [exec_esc_of_pair hx hge, hvc]
    exact resumeField_of_next_marker ha hj hpre

end Sys2Proof.Machine
end

section
/-! FLD, decoding: what a token of `FD.RUN` can do, and the escape steps as a whole (spec/41_field_codec.md R110,
R116). -/

namespace Sys2Proof.Machine

open Safety

/-- What a step at or after an escape marker can do: raise, fill the placeholder under SC and go on to the next token, or
stop at the next marker. A cursor inside the payload stays inside it. -/
inductive FieldMove (s : State) : State → Prop
  | error (e : Err) (n : Nat) (hn : s.pc ≤ s.plen → n ≤ s.plen) : FieldMove s (raised e { s with pc := n })
  | filled (n : Nat) (k : Kind) (v : SlotVal) (hn : s.pc ≤ s.plen → n ≤ s.plen) (hk : slotOutKind s s.sc = some k) :
      FieldMove s { s with
        pc := n, tc := s.tc + 1, sc := s.sc + 1, act := .fieldDec s.act.inCall
        slotOut := s.slotOut.set s.sc (some ⟨k, some v⟩) }
  | marker (n : Nat) (vc : VarCode) (raw : List Byte) (j : Nat) (u : List Byte) (hn : s.pc ≤ s.plen → n ≤ s.plen) :
      FieldMove s { s with pc := n, act := .unescape s.act.inCall vc, fldRaw := raw, fldJ := j, fldU := u }

/-- What a decoding token can do: consume a literal, fill the placeholder under SC, or what a field with markers can. -/
inductive DecMove (s : State) : State → Prop
  | literal (hpc : s.pc < s.plen) : DecMove s { s with pc := s.pc + 1, tc := s.tc + 1 }
  | filled (n : Nat) (k : Kind) (v : SlotVal) (hn : s.pc ≤ s.plen → n ≤ s.plen) (hk : slotOutKind s s.sc = some k) :
      DecMove s { s with
        pc := n, tc := s.tc + 1, sc := s.sc + 1, slotOut := s.slotOut.set s.sc (some ⟨k, some v⟩) }
  | field {t : State} (h : FieldMove s t) : DecMove s t

section
variable {s t : State} {n : Nat}

theorem fieldMove_of_resumeField {vc : VarCode} {raw u : List Byte} {j : Nat} (hn : s.pc ≤ s.plen → n ≤ s.plen)
    (h : resumeField vc raw j u { s with pc := n } = .next t) : FieldMove s t := by
  obtain h | rfl := resumeField_cases h
  · obtain ⟨e, rfl⟩ | ⟨k, v, hk, -, rfl⟩ := finishField_cases h
    · exact .error e n hn
    · exact .filled n k v hn hk
  · exact .marker n vc raw _ _ hn

theorem decMove_of_raise {e : Err} (hn : s.pc ≤ s.plen → n ≤ s.plen) (h : raise e { s with pc := n } = .next t) :
    DecMove s t :=
  raise_next.1 h ▸ .field (.error e n hn)

theorem decMove_of_putSlot {k : Kind} {v : SlotVal} (hn : s.pc ≤ s.plen → n ≤ s.plen)
    (hk : slotOutKind s s.sc = some k) (h : putSlot v k { s with pc := n } = .next t) : DecMove s t :=
  Host.Outcome.next.inj h ▸ .filled n k v hn hk

/-- A typed token moves PC past its field, and then does what its parser does. -/
theorem decMove_of_fdTyped {code : FieldCode} {f : List Byte → Kind → State → Out}
    (hf : ∀ n raw k t, (s.pc ≤ s.plen → n ≤ s.plen) → slotOutKind s s.sc = some k →
      f raw k { s with pc := n } = .next t → DecMove s t)
    (h : fdTyped code f s = .next t) : DecMove s t := by
  obtain ⟨e, rfl⟩ | ⟨p, w, hp, hw, h⟩ := fdTyped_cases h
  · exact .field (.error e s.pc id)
  · have hn : s.pc ≤ s.plen → s.pc + w ≤ s.plen := fun hle => by
      rw [← Memory.readBytes_length hp] at hle ⊢
      exact fieldWidth_le hle hw
    obtain ⟨e, rfl⟩ | ⟨k, hk, -, h⟩ := h
    · exact .field (.error e _ hn)
    · exact hf _ _ k t hn hk h

theorem decMove_of_fieldW {raw : List Byte} {k : Kind} (hn : s.pc ≤ s.plen → n ≤ s.plen)
    (hk : slotOutKind s s.sc = some k) (h : fieldW raw k { s with pc := n } = .next t) : DecMove s t := by
  unfold fieldW at h
  split at h
  · exact decMove_of_putSlot hn hk h
  · exact decMove_of_raise hn h

theorem decMove_of_fieldDate {code : FieldCode} {layout : List DatePos} {secs : List Byte → Nat} {raw : List Byte}
    {k : Kind} (hn : s.pc ≤ s.plen → n ≤ s.plen) (hk : slotOutKind s s.sc = some k)
    (h : fieldDate code layout secs raw k { s with pc := n } = .next t) : DecMove s t := by
  unfold fieldDate at h
  split at h
  · exact decMove_of_raise hn h
  · exact decMove_of_putSlot hn hk h

theorem decMove_of_fdLit {b : Byte} (h : exec (.fdLit b) s = .next t) : DecMove s t := by
  obtain ⟨p, hp, h⟩ := withPayload_next (k := fun p => match p[s.pc]? with
    | none => raise (.decodeMismatch (.expected s.pc none b)) s
    | some x => if x = b then .next { s with pc := s.pc + 1, tc := s.tc + 1 }
      else raise (.decodeMismatch (.expected s.pc (some x) b)) s) h
  split at h
  · exact decMove_of_raise (n := s.pc) id h
  case h_2 x hx =>
    split at h
    · exact Host.Outcome.next.inj h ▸ .literal (Memory.readBytes_length hp ▸ (List.getElem?_eq_some_iff.1 hx).1)
    · exact decMove_of_raise (n := s.pc) id h

theorem fieldMove_of_esc (h : exec .esc s = .next t) : FieldMove s t := by
  change execEsc s = .next t at h
  unfold execEsc at h
  split at h
  · exact raise_next.1 h ▸ .error _ s.pc id
  · split at h
    · exact raise_next.1 h ▸ .error _ s.pc id
    · exact fieldMove_of_resumeField (n := s.pc) id h

/-- The decoding tokens and ESC. -/
def decodes (i : Instr) : Prop := i ∈ [Instr.fdW, .fdB, .fdT, .fdQ, .fdQs, .esc] ∨ ∃ k, i = .fdLit k

theorem decMove_of_exec {i : Instr} (hi : decodes i) (h : exec i s = .next t) : DecMove s t := by
  obtain hi | ⟨k, rfl⟩ := hi
  · simp only [List.mem_cons, List.not_mem_nil, or_false] at hi
    obtain rfl | rfl | rfl | rfl | rfl | rfl := hi
    · exact decMove_of_fdTyped (fun _ _ _ _ => decMove_of_fieldW) (exec_fdW s ▸ h)
    · exact decMove_of_fdTyped (fun _ _ _ _ hn _ h => .field (fieldMove_of_resumeField hn h)) (exec_fdB s ▸ h)
    · exact decMove_of_fdTyped (fun _ _ _ _ hn _ h => .field (fieldMove_of_resumeField hn h)) (exec_fdT s ▸ h)
    · exact decMove_of_fdTyped (fun _ _ _ _ => decMove_of_fieldDate) (exec_fdQ s ▸ h)
    · exact decMove_of_fdTyped (fun _ _ _ _ => decMove_of_fieldDate) (exec_fdQs s ▸ h)
    · exact .field (fieldMove_of_esc h)
  · exact decMove_of_fdLit h

end

/-- Settles O28: of the moves only those that fill touch a placeholder, the one under SC. -/
theorem decodingTokensStoreOnlyInTheirSlot : Obligations.DecodingTokensStoreOnlyInTheirSlot := by
  intro i s t hi h
  cases decMove_of_exec hi h with
  | literal => exact .inr ⟨rfl, fun _ _ => rfl⟩
  | filled => exact .inr ⟨rfl, fun j hj => List.getElem?_set_ne hj.symm⟩
  | field h =>
    cases h with
    | error e n => exact .inl ⟨e, n, rfl⟩
    | filled => exact .inr ⟨rfl, fun j hj => List.getElem?_set_ne hj.symm⟩
    | marker => exact .inr ⟨rfl, fun _ _ => rfl⟩

/-- Steps from outcome to outcome. -/
inductive Runs : Out → Out → Prop
  | refl (o : Out) : Runs o o
  | step {s : State} {o : Out} (h : Runs (step s) o) : Runs (.next s) o

theorem exists_runSteps_of_runs {o o' : Out} (h : Runs o o') {s t : State} (hs : o = .next s) (ht : o' = .next t) :
    ∃ n, runSteps n s = .next t := by
  induction h generalizing s with
  | refl o => exact ⟨0, hs.symm.trans ht⟩
  | @step s' o h ih =>
    cases hs
    cases hstep : Machine.step s' with
    | next t' =>
      obtain ⟨n, hn⟩ := ih hstep ht
      exact ⟨n + 1, (runSteps_succ hstep n).trans hn⟩
    | fault f => rw [hstep] at h; cases h; cases ht
    | refused r => rw [hstep] at h; cases h; cases ht

/-- Bytes that are no marker pass unchanged, also a whole run of them. -/
theorem unescape_append_of_no_marker {bs : List Byte} (h : 0x10#8 ∉ bs) (j : Nat) (rest : List Byte) :
    unescape j (bs ++ rest) = (unescape (j + bs.length) rest).map (bs ++ ·) := by
  induction bs generalizing j with
  | nil => cases hr : unescape j rest <;> simp [hr, Except.map]
  | cons b bs ih =>
    obtain ⟨hb, hbs⟩ := not_or.1 (mt List.mem_cons.2 h)
    rw [List.cons_append, unescape_cons_of_ne (Ne.symm hb), ih hbs, List.length_cons, Nat.add_right_comm, Nat.add_assoc]
    cases unescape (j + (bs.length + 1)) rest <;> rfl

theorem unescape_of_no_marker {bs : List Byte} (h : 0x10#8 ∉ bs) (j : Nat) : unescape j bs = .ok bs := by
  have := unescape_append_of_no_marker h j []
  simpa [unescape, Except.map] using this

/-- Away from a marker the field goes on without an instruction. -/
theorem step_unescape_resume {s : State} {c : Bool} {vc : VarCode} (ha : s.act = .unescape c vc)
    (hw : hostWaits s = true) (hb : s.fldRaw[s.fldJ]? ≠ some 0x10#8) :
    step s = resumeField vc s.fldRaw s.fldJ s.fldU s := by
  refine step_of_done ?_
  rw [fetch_of_waits hw (by simp [ha])]
  simp only [running, ha, escapeStep]
  split
  case h_1 b hbyte =>
    split
    case h_1 hesc =>
      obtain rfl : 0x10#8 = b := CodeWord.wire8.inj (encode_of_decodeWire hesc).1
      exact absurd hbyte hb
    case h_2 => rfl
  case h_2 => rfl

/-- How a field ends whose unescaped text, behind the bytes already taken, is `r` (R114 to R116). -/
def escapeEnd (vc : VarCode) (u : List Byte) (s : State) : Except (Nat × Option Byte) (List Byte) → Out
  | .ok v => finishField vc (u ++ v) s
  | .error (k, x) => raise (.decodeMismatch (.escape (s.pc - s.fldRaw.length + k) x)) s

theorem escapeEnd_map (vc : VarCode) (u v : List Byte) (s : State) (r : Except (Nat × Option Byte) (List Byte)) :
    escapeEnd vc u s (r.map (v ++ ·)) = escapeEnd vc (u ++ v) s r := by
  cases r with
  | ok w => simp [escapeEnd, Except.map]
  | error e => rfl

/-- From any index of the field on, the steps compute `unescape` of the rest: by the distance to the end of the field. -/
theorem resumeField_runs {s : State} {c : Bool} {vc : VarCode} (ha : s.act = .unescape c vc) (hw : hostWaits s = true)
    (j : Nat) (u : List Byte) : ∃ j' u', Runs (resumeField vc s.fldRaw j u s)
      (escapeEnd vc u { s with fldJ := j', fldU := u' } (unescape j (s.fldRaw.drop j))) := by
  induction hm : s.fldRaw.length - j using Nat.strong_induction_on generalizing s j u with
  | _ m ih =>
    by_cases hno : 0x10#8 ∈ s.fldRaw.drop j
    case neg =>
      rw [resumeField_of_no_marker hno, unescape_of_no_marker hno]
      exact ⟨s.fldJ, s.fldU, .refl _⟩
    case pos =>
      obtain ⟨bs, rest, hsplit, hbs⟩ := List.eq_append_cons_of_mem hno
      have hrest : s.fldRaw.drop (j + bs.length + 1) = rest := by
        rw [Nat.add_assoc, ← List.drop_drop, hsplit, ← List.drop_drop, List.drop_left]; rfl
      have hstop : resumeField vc s.fldRaw j u s = .next { s with fldJ := j + bs.length, fldU := u ++ bs } := by
        rw [resumeField_of_next_marker (d := bs.length) ha (by rw [hsplit]; simp) (by rw [hsplit]; simpa using hbs),
          hsplit, List.take_left]
      have hstep : step { s with fldJ := j + bs.length, fldU := u ++ bs } =
          exec .esc { s with fldJ := j + bs.length, fldU := u ++ bs } :=
        step_unescape_marker (c := c) (vc := vc) ha hw (by
          change s.fldRaw[j + bs.length]? = _
          rw [← List.getElem?_drop, hsplit]
          simp)
      have hnext : s.fldRaw[j + bs.length + 1]? = rest[0]? := by
        rw [← hrest, List.getElem?_drop, Nat.add_zero]
      rw [hsplit, unescape_append_of_no_marker hbs, hstop]
      simp only [escapeEnd_map]
      suffices ∃ j' u', Runs (exec .esc { s with fldJ := j + bs.length, fldU := u ++ bs })
          (escapeEnd vc (u ++ bs) { s with fldJ := j', fldU := u' } (unescape (j + bs.length) (0x10#8 :: rest))) by
        obtain ⟨j', u', h⟩ := this
        exact ⟨j', u', .step (hstep ▸ h)⟩
      cases rest with
      | nil =>
        refine ⟨j + bs.length, u ++ bs, ?_⟩
        rw [exec_esc_of_end (List.getElem?_eq_none_iff.1 hnext)]
        exact .refl _
      | cons x rest =>
        by_cases hlow : x.toNat < 64
        · refine ⟨j + bs.length, u ++ bs, ?_⟩
          rw [exec_esc_of_low hnext hlow]
          simp only [unescape, Config.esc, if_true, hlow]
          exact .refl _
        · have hge : 64 ≤ x.toNat := Nat.le_of_not_lt hlow
          have hrest' : s.fldRaw.drop (j + bs.length + 2) = rest := by
            rw [← Nat.add_assoc _ 1 1, ← List.drop_drop, hrest]; rfl
          have hlt : j + bs.length + 1 < s.fldRaw.length := (List.getElem?_eq_some_iff.1 hnext).1
          obtain ⟨j', u', h⟩ := ih (s.fldRaw.length - (j + bs.length + 2)) (by omega)
            (s := { s with fldJ := j + bs.length, fldU := u ++ bs }) ha hw (j + bs.length + 2)
            (u ++ bs ++ [x - 64#8]) rfl
          refine ⟨j', u', ?_⟩
          have hvc : s.act.varCode = vc := by rw [ha]; rfl
          have hpair : unescape (j + bs.length) (0x10#8 :: x :: rest) =
              (unescape (j + bs.length + 2) rest).map ([x - 64#8] ++ ·) := unescape_pair hge _ rest
          rw [exec_esc_of_pair hnext hge, hpair, escapeEnd_map, ← hrest']
          exact hvc ▸ h

/-- The text before the index has been taken, so the rest of the field decides how the whole unescapes. -/
theorem unescape_split {raw : List Byte} {j : Nat} (hpre : 0x10#8 ∉ raw.take j) (hj : j ≤ raw.length) :
    unescape 0 raw = (unescape j (raw.drop j)).map (raw.take j ++ ·) := by
  have := unescape_append_of_no_marker hpre 0 (raw.drop j)
  rwa [List.take_append_drop, Nat.zero_add, List.length_take, Nat.min_eq_left hj] at this

/-- The machine, wherever it stands in the field, comes to the end that `unescape` of the whole field gives. -/
theorem escape_steps {s : State} {c : Bool} {vc : VarCode} (ha : s.act = .unescape c vc) (hw : hostWaits s = true)
    (hu : s.fldU = s.fldRaw.take s.fldJ) (hpre : 0x10#8 ∉ s.fldRaw.take s.fldJ) (hj : s.fldJ ≤ s.fldRaw.length) :
    ∃ j' u', Runs (.next s) (escapeEnd vc [] { s with fldJ := j', fldU := u' } (unescape 0 s.fldRaw)) := by
  obtain ⟨j', u', h⟩ := resumeField_runs ha hw s.fldJ s.fldU
  refine ⟨j', u', ?_⟩
  rw [unescape_split hpre hj, escapeEnd_map, List.nil_append, ← hu]
  by_cases hb : s.fldRaw[s.fldJ]? = some 0x10#8
  · have hstay : resumeField vc s.fldRaw s.fldJ s.fldU s = .next s := by
      rw [resumeField_of_next_marker (d := 0) ha (by simpa using hb) (by simp)]
      simp
    exact hstay ▸ h
  · exact .step (step_unescape_resume ha hw hb ▸ h)

/-- Settles O30: the steps come to the end that `unescape` gives, and that end is read off its result. -/
theorem escapeStepsComputeUnescape : Obligations.EscapeStepsComputeUnescape := by
  intro s c vc ha hw hu hpre hj
  obtain ⟨j', u', h⟩ := escape_steps ha hw hu hpre hj
  refine ⟨fun u k v hr hk hv => ?_, fun u k hr hk hv => ?_, fun j o hr => ?_⟩
  all_goals rw [hr] at h
  · obtain ⟨n, hn⟩ := exists_runSteps_of_runs h rfl
      (finishField_of_value (s := { s with fldJ := j', fldU := u' }) hk hv)
    exact ⟨n, _, hn, by simp only [ha]; rfl⟩
  · obtain ⟨n, hn⟩ := exists_runSteps_of_runs h rfl
      (finishField_of_no_value (s := { s with fldJ := j', fldU := u' }) hk hv)
    exact ⟨n, _, hn, rfl⟩
  · obtain ⟨n, hn⟩ := exists_runSteps_of_runs h rfl rfl
    exact ⟨n, _, hn, rfl⟩

end Sys2Proof.Machine
end

section
/-! FLD: the numerals of `B` fields (spec/30_encoding.md R75, spec/41_field_codec.md R105, R114, R120). -/

namespace Sys2Proof.Machine

open Safety

/-- The digits after the point, with the point. -/
def Numeral.fraction (n : Numeral) : List Byte :=
  match n.fp with
  | none => []
  | some f => 0x2E#8 :: f

/-- The text of a numeral: sign, digits, fraction (R75). -/
def Numeral.text (n : Numeral) : List Byte := (if n.neg then [0x2D#8] else []) ++ n.ip ++ n.fraction

/-- What R75 asks of a numeral: at least one digit before the point, and at least one after it where there is a point. -/
structure Numeral.Valid (n : Numeral) : Prop where
  ipNe : n.ip ≠ []
  ipDigits : n.ip.all isDigit = true
  fpNe : n.fp ≠ some []
  fpDigits : ∀ f, n.fp = some f → f.all isDigit = true

/-- The numeral with `f` as the digits after the point, and no point where there are none. -/
def Numeral.ofParts (neg : Bool) (ip f : List Byte) : Numeral := ⟨neg, ip, if f = [] then none else some f⟩

theorem Numeral.text_ofParts (neg : Bool) (ip f : List Byte) :
    (Numeral.ofParts neg ip f).text =
      (if neg then [0x2D#8] else []) ++ ip ++ (if f = [] then [] else 0x2E#8 :: f) := by
  by_cases hf : f = [] <;> simp [ofParts, text, fraction, hf]

theorem Numeral.valid_ofParts {neg : Bool} {ip f : List Byte} (hip : ip ≠ []) (hd : ip.all isDigit = true)
    (hf : f.all isDigit = true) : (Numeral.ofParts neg ip f).Valid where
  ipNe := hip
  ipDigits := hd
  fpNe := by by_cases h : f = [] <;> simp [ofParts, h]
  fpDigits := by
    intro g hg
    by_cases h : f = []
    · simp [ofParts, h] at hg
    · simp only [ofParts, h, if_false, Option.some.injEq] at hg
      exact hg ▸ hf

/-- Every valid numeral is made of its parts. -/
theorem Numeral.Valid.eq_ofParts {n : Numeral} (h : n.Valid) :
    ∃ f, f.all isDigit = true ∧ n = Numeral.ofParts n.neg n.ip f := by
  obtain ⟨neg, ip, fp⟩ := n
  cases fp with
  | none => exact ⟨[], rfl, rfl⟩
  | some f => exact ⟨f, h.fpDigits f rfl, by simp [ofParts, show f ≠ [] from fun hf => h.fpNe (by rw [hf])]⟩

theorem takeWhile_dropWhile_isDigit {ip r : List Byte} (h : ip.all isDigit = true)
    (hr : ∀ b ∈ r.head?, isDigit b = false) :
    (ip ++ r).takeWhile isDigit = ip ∧ (ip ++ r).dropWhile isDigit = r := by
  rw [List.all_eq_true] at h
  rw [List.takeWhile_append_of_pos h, List.dropWhile_append_of_pos h]
  cases r with
  | nil => simp
  | cons b r =>
    have hb : isDigit b = false := hr b rfl
    simp [hb]

/-- The point is no digit. -/
theorem isDigit_head_fraction (n : Numeral) : ∀ b ∈ n.fraction.head?, isDigit b = false := by
  obtain ⟨neg, ip, fp⟩ := n
  cases fp with
  | none => exact nofun
  | some f =>
    intro b hb
    obtain rfl : 0x2E#8 = b := by simpa [Numeral.fraction] using hb
    decide

/-- The unsigned part of the grammar: it takes a text apart exactly as `Numeral.text` puts it together. -/
theorem parseUnsigned_of_valid {n : Numeral} (h : n.Valid) : parseUnsigned n.neg (n.ip ++ n.fraction) = some n := by
  obtain ⟨hip, hd, hne, hf⟩ := h
  obtain ⟨htake, hdrop⟩ := takeWhile_dropWhile_isDigit hd (isDigit_head_fraction n)
  have hempty : ¬ n.ip.isEmpty = true := by simpa using hip
  rw [parseUnsigned, htake, hdrop, if_neg hempty]
  obtain ⟨neg, ip, fp⟩ := n
  cases fp with
  | none => rfl
  | some f => exact if_pos ⟨rfl, fun h => hne (congrArg some h), hf f rfl⟩

theorem valid_of_parseUnsigned {neg : Bool} {u : List Byte} {n : Numeral} (h : parseUnsigned neg u = some n) :
    n.Valid ∧ n.neg = neg ∧ u = n.ip ++ n.fraction := by
  have hall : (u.takeWhile isDigit).all isDigit = true := List.all_eq_true.2 fun b hb => List.mem_takeWhile_imp hb
  have hsplit : u = u.takeWhile isDigit ++ u.dropWhile isDigit := List.takeWhile_append_dropWhile.symm
  unfold parseUnsigned at h
  split at h
  case isTrue => cases h
  case isFalse hne =>
    have hip : u.takeWhile isDigit ≠ [] := by simpa using hne
    split at h
    case h_1 hd =>
      obtain rfl := Option.some.inj h
      refine ⟨⟨hip, hall, nofun, nofun⟩, rfl, ?_⟩
      rw [hd] at hsplit
      exact hsplit
    case h_2 b f hd =>
      split at h
      case isFalse => cases h
      case isTrue hpoint =>
        obtain ⟨rfl, hfne, hfd⟩ := hpoint
        obtain rfl := Option.some.inj h
        refine ⟨⟨hip, hall, by simpa using hfne, fun g hg => Option.some.inj hg ▸ hfd⟩, rfl, ?_⟩
        rw [hd] at hsplit
        exact hsplit

/-- A digit is not the sign. -/
theorem ne_sign_of_isDigit {b : Byte} (h : isDigit b = true) : b ≠ 0x2D#8 := by
  rintro rfl
  exact absurd h (by decide)

/-- The grammar of R75: a text parses to a numeral exactly if it is the text of that numeral. -/
theorem parseNumeral_iff {u : List Byte} {n : Numeral} : parseNumeral u = some n ↔ n.Valid ∧ n.text = u := by
  constructor
  · intro h
    unfold parseNumeral at h
    split at h
    case h_1 => cases h
    case h_2 b u =>
      split at h
      case isTrue hb =>
        obtain ⟨hv, hneg, hu⟩ := valid_of_parseUnsigned h
        exact ⟨hv, by simp [Numeral.text, hneg, hu, hb]⟩
      case isFalse =>
        obtain ⟨hv, hneg, hu⟩ := valid_of_parseUnsigned h
        exact ⟨hv, by simp [Numeral.text, hneg, hu]⟩
  · rintro ⟨hv, rfl⟩
    have hparse := parseUnsigned_of_valid hv
    cases hneg : n.neg with
    | true =>
      rw [hneg] at hparse
      simpa [Numeral.text, hneg, parseNumeral] using hparse
    | false =>
      rw [hneg] at hparse
      obtain ⟨d, ds, hds⟩ := List.exists_cons_of_ne_nil hv.ipNe
      have hd : d ≠ 0x2D#8 := ne_sign_of_isDigit (List.all_eq_true.1 hv.ipDigits d (by simp [hds]))
      rw [hds, List.cons_append] at hparse
      simpa [Numeral.text, hneg, hds, parseNumeral, hd] using hparse

theorem parseNumeral_ofParts {neg : Bool} {ip f raw : List Byte} (hip : ip ≠ []) (hd : ip.all isDigit = true)
    (hf : f.all isDigit = true)
    (hraw : raw = (if neg then [0x2D#8] else []) ++ ip ++ (if f = [] then [] else 0x2E#8 :: f)) :
    parseNumeral raw = some (Numeral.ofParts neg ip f) :=
  parseNumeral_iff.2 ⟨Numeral.valid_ofParts hip hd hf, (Numeral.text_ofParts neg ip f).trans hraw.symm⟩

theorem parseNumeral_eq_none {raw : List Byte}
    (h : ∀ (neg : Bool) (ip f : List Byte), ip ≠ [] → ip.all isDigit = true → f.all isDigit = true →
      raw ≠ (if neg then [0x2D#8] else []) ++ ip ++ (if f = [] then [] else 0x2E#8 :: f)) :
    parseNumeral raw = none := by
  refine Option.eq_none_iff_forall_ne_some.2 fun n hn => ?_
  obtain ⟨hv, htext⟩ := parseNumeral_iff.1 hn
  obtain ⟨f, hf, hparts⟩ := hv.eq_ofParts
  exact h n.neg n.ip f hv.ipNe hv.ipDigits hf (by rw [← htext, ← Numeral.text_ofParts, ← hparts])

/-- A text with a point has digits after it. -/
theorem fp_isSome_of_point {raw : List Byte} {n : Numeral} (h : parseNumeral raw = some n) (hp : 0x2E#8 ∈ raw) :
    ∃ f, n.fp = some f := by
  obtain ⟨hv, rfl⟩ := parseNumeral_iff.1 h
  cases hfp : n.fp with
  | some f => exact ⟨f, rfl⟩
  | none =>
    have hdigit : 0x2E#8 ∈ n.ip := by
      cases hneg : n.neg <;> simpa [Numeral.text, Numeral.fraction, hfp, hneg] using hp
    exact absurd (List.all_eq_true.1 hv.ipDigits _ hdigit) (by decide)

section
variable {c : Config.Configuration} {neg : Bool} {ip f raw : List Byte} {v m : Int}

/-- An INT field spells its value (R114). -/
theorem valueB_int (hip : ip ≠ []) (hd : ip.all isDigit = true) (hraw : raw = (if neg then [0x2D#8] else []) ++ ip)
    (hv : v = if neg then -(decValue ip : Int) else (decValue ip : Int)) :
    valueB c .int raw = if inBounds c.intBits v then some (.int v) else none := by
  have hparse := parseNumeral_ofParts (neg := neg) (f := []) hip hd rfl (hraw.trans (List.append_nil _).symm)
  subst hv
  simp only [valueB, hparse, Numeral.ofParts, if_true, signed]

theorem valueB_int_of_point (hp : 0x2E#8 ∈ raw) : valueB c .int raw = none := by
  cases hparse : parseNumeral raw with
  | none => simp only [valueB, hparse]
  | some n =>
    obtain ⟨f, hf⟩ := fp_isSome_of_point hparse hp
    simp only [valueB, hparse, hf]

/-- A REAL field spells its mantissa with as many decimals as digits after the point (R114). -/
theorem valueB_real (hip : ip ≠ []) (hd : ip.all isDigit = true) (hf : f.all isDigit = true)
    (hraw : raw = (if neg then [0x2D#8] else []) ++ ip ++ (if f = [] then [] else 0x2E#8 :: f))
    (hm : m = if neg then -(decValue (ip ++ f) : Int) else (decValue (ip ++ f) : Int)) :
    valueB c .real raw =
      if f.length ≤ c.realMaxScale ∧ inBounds c.realMantBits m then some (.real m f.length) else none := by
  have hparse := parseNumeral_ofParts hip hd hf hraw
  subst hm
  by_cases hnil : f = []
  · subst hnil
    simp [valueB, hparse, Numeral.ofParts, signed]
  · simp only [valueB, hparse, Numeral.ofParts, hnil, if_false, signed]

theorem valueB_of_no_numeral (k : Kind) (h : parseNumeral raw = none) : valueB c k raw = none := by
  simp only [valueB, h]

end

/-- Settles O25: the field stops at its first marker, or is its own text and parses as R75 says. -/
theorem bFieldDecodes : Obligations.BFieldDecodes := by
  intro s p raw w hp hw hraw
  have hscan {k : Kind} (hk : slotOutKind s s.sc = some k) (ha : accepts .b k = true) :
      exec .fdB s = resumeField .b raw 0 [] { s with pc := s.pc + w } := exec_fdB_of_width hp hw hraw hk ha
  have hfill {k : Kind} {v : SlotVal} (hno : 0x10#8 ∉ raw) (hk : slotOutKind s s.sc = some k)
      (ha : accepts .b k = true) (hv : valueB s.cfg k raw = some v) := (hscan hk ha).trans
    (resumeField_start_of_value (vc := .b) (s := { s with pc := s.pc + w }) hno hk hv)
  have hbad {k : Kind} (hno : 0x10#8 ∉ raw) (hk : slotOutKind s s.sc = some k) (ha : accepts .b k = true)
      (hv : valueB s.cfg k raw = none) := (hscan hk ha).trans
    (resumeField_start_of_no_value (vc := .b) (s := { s with pc := s.pc + w }) hno hk hv)
  refine ⟨fun j hj hpre hk => ?_, fun hno => ⟨fun neg ip v hip hd hr hv hk hlo hhi => ?_,
    fun neg ip f m hip hd hf hr hm hk hsc hlo hhi => ?_, fun hnum hk => ?_, fun hpt hk => ?_,
    fun neg ip v hip hd hr hv hk hout => ?_, fun neg ip f m hip hd hf hr hm hk hout => ?_⟩⟩
  · obtain hk | hk := hk
    · exact (hscan hk rfl).trans (resumeField_start_of_marker hj hpre)
    · exact (hscan hk rfl).trans (resumeField_start_of_marker hj hpre)
  · exact hfill hno hk rfl ((valueB_int hip hd hr hv).trans (if_pos (inBounds_iff.2 ⟨hlo, hhi⟩)))
  · exact hfill hno hk rfl ((valueB_real hip hd hf hr hm).trans (if_pos ⟨hsc, inBounds_iff.2 ⟨hlo, hhi⟩⟩))
  · obtain hk | hk := hk
    · exact hbad hno hk rfl (valueB_of_no_numeral _ (parseNumeral_eq_none hnum))
    · exact hbad hno hk rfl (valueB_of_no_numeral _ (parseNumeral_eq_none hnum))
  · exact hbad hno hk rfl (valueB_int_of_point hpt)
  · refine hbad hno hk rfl ((valueB_int hip hd hr hv).trans (if_neg fun hin => ?_))
    have := inBounds_iff.1 hin
    omega
  · refine hbad hno hk rfl ((valueB_real hip hd hf hr hm).trans (if_neg fun ⟨hsc, hin⟩ => ?_))
    have := inBounds_iff.1 hin
    omega

/-- Digits in front weigh as many places as digits follow. -/
theorem decValue_append (ds es : List Byte) : decValue (ds ++ es) = decValue ds * 10 ^ es.length + decValue es := by
  induction es using List.reverseRecOn with
  | nil => simp [decValue]
  | append_singleton es e ih =>
    have hlast (xs : List Byte) : decValue (xs ++ [e]) = decValue xs * 10 + digitVal e := by
      simp [decValue, List.foldl_append]
    rw [← List.append_assoc, hlast, hlast, ih, List.length_append, List.length_singleton, pow_succ]
    ring

theorem sign_natAbs (v : Int) : v = if v < 0 then -(v.natAbs : Int) else (v.natAbs : Int) := by
  split <;> omega

/-- The numeral of a REAL spells its mantissa: the integer part and exactly `d` decimals. -/
theorem decValue_real (x d : Nat) :
    decValue (dec (x / 10 ^ d) ++ if d = 0 then [] else decPad (x % 10 ^ d) d) = x := by
  by_cases hd : d = 0
  · subst hd
    simp [decValue_dec]
  · rw [if_neg hd, decValue_append, decValue_dec, length_decPad, decValue_decPad, Nat.mod_mod]
    exact Nat.div_add_mod' x (10 ^ d)

theorem valueB_of_bytesB {c : Config.Configuration} {v : SlotVal} {bs : List Byte} (h : bytesB c v = some bs) :
    valueB c v.kind bs = some v := by
  cases v with
  | int v =>
    simp only [bytesB, Option.ite_none_right_eq_some, Option.some.injEq] at h
    obtain ⟨hin, rfl⟩ := h
    have hval := valueB_int (c := c) (neg := decide (v < 0)) (v := v) (dec_ne_nil v.natAbs) (all_isDigit_dec _)
      (raw := signBytes v ++ dec v.natAbs) (by simp [signBytes]) (by simpa [decValue_dec] using sign_natAbs v)
    exact hval.trans (if_pos hin)
  | real m d =>
    simp only [bytesB, Option.ite_none_right_eq_some, Option.some.injEq] at h
    obtain ⟨⟨hin, hd⟩, rfl⟩ := h
    have hval := valueB_real (c := c) (neg := decide (m < 0)) (m := m)
      (f := if d = 0 then [] else decPad (m.natAbs % 10 ^ d) d) (dec_ne_nil (m.natAbs / 10 ^ d)) (all_isDigit_dec _)
      (by split <;> simp [all_isDigit_decPad])
      (raw := signBytes m ++ dec (m.natAbs / 10 ^ d) ++
        if d = 0 then [] else 0x2E#8 :: decPad (m.natAbs % 10 ^ d) d)
      (by cases d <;> simp [signBytes, decPad])
      (by simpa [decValue_real] using sign_natAbs m)
    have hlen : (if d = 0 then [] else decPad (m.natAbs % 10 ^ d) d).length = d := by
      split <;> simp [*]
    rw [hlen] at hval
    exact hval.trans (if_pos ⟨hd, hin⟩)
  | text s => cases h
  | char c => cases h
  | datetime v => cases h

theorem bytesW_some {v : Int} {bs : List Byte} (h : bytesW (.int v) = some bs) :
    ∃ n : Nat, v = n ∧ n ≤ 65535 := by
  simp only [bytesW, Option.ite_none_right_eq_some] at h
  exact ⟨v.toNat, by omega, by omega⟩

theorem unhexAll_of_bytesW {v : Int} {bs : List Byte} (h : bytesW (.int v) = some bs) :
    ∃ n : Nat, v = n ∧ unhexAll 0 bs = .ok n := by
  obtain ⟨n, rfl, hn⟩ := bytesW_some h
  obtain rfl := Option.some.inj ((bytesW_of_range hn).symm.trans h)
  refine ⟨n, rfl, ?_⟩
  rw [unhexAll_four (by omega) (by omega) (by omega) (by omega)]
  exact congrArg _ (by omega)

end Sys2Proof.Machine
end

section
/-! FLD: the date-time fields (spec/41_field_codec.md R107, R108, R117, R118, R120, R122). -/

namespace Sys2Proof.Machine

open Safety

/-- Two digits spell a number up to 99 (R11). -/
theorem digitVal_dec2 {n : Nat} (h : n ≤ 99) : digitVal (digit (n / 10)) * 10 + digitVal (digit (n % 10)) = n := by
  rw [digitVal_digit (by omega), digitVal_digit (by omega)]
  omega

section
variable {code : FieldCode} {pos n : Nat} {l : List DatePos} {rest : List Byte}

theorem checkLayout_dec2 (h : n ≤ 99) :
    checkLayout code pos (.digit :: .digit :: l) (dec2 n ++ rest) = checkLayout code (pos + 2) l rest := by
  simp [checkLayout, dec2, isDigit_digit (show n / 10 < 10 by omega), isDigit_digit (show n % 10 < 10 by omega)]

theorem checkLayout_sep (b : Byte) :
    checkLayout code pos (.sep b :: l) (b :: rest) = checkLayout code (pos + 1) l rest := if_pos rfl

end

/-- The fields that both layouts have fit two digits. -/
structure DateTime.Fits (v : DateTime) : Prop where
  day : v.day ≤ 99
  month : v.month ≤ 99
  hour : v.hour ≤ 99
  minute : v.minute ≤ 99

section
variable {v : DateTime} {bs : List Byte}

theorem bytesQ_some (h : bytesQ (.datetime v) = some bs) : v.Fits ∧ bs = dateBytes v := by
  simp only [bytesQ, Option.ite_none_left_eq_some, Option.some.injEq] at h
  exact ⟨⟨by omega, by omega, by omega, by omega⟩, h.2.symm⟩

theorem bytesQs_some (h : bytesQs (.datetime v) = some bs) :
    v.Fits ∧ v.second ≤ 99 ∧ bs = dateBytes v ++ [0x2D#8] ++ dec2 v.second := by
  simp only [bytesQs, Option.ite_none_left_eq_some, Option.some.injEq] at h
  exact ⟨⟨by omega, by omega, by omega, by omega⟩, by omega, h.2.symm⟩

theorem length_dateBytes (v : DateTime) : (dateBytes v).length = 14 := rfl

theorem checkLayout_dateBytes (h : v.Fits) (code : FieldCode) (pos : Nat) (l : List DatePos) (rest : List Byte) :
    checkLayout code pos (layoutQ ++ l) (dateBytes v ++ rest) = checkLayout code (pos + 14) l rest := by
  have hyear : v.year.val % 100 ≤ 99 := by omega
  simp only [layoutQ, dateBytes, List.append_assoc, List.cons_append, List.nil_append, checkLayout_dec2 h.day,
    checkLayout_dec2 h.month, checkLayout_dec2 hyear, checkLayout_dec2 h.hour, checkLayout_dec2 h.minute,
    checkLayout_sep]

theorem checkLayout_q (h : v.Fits) (code : FieldCode) (pos : Nat) : checkLayout code pos layoutQ (dateBytes v) = none := by
  simpa [checkLayout] using checkLayout_dateBytes h code pos [] []

theorem checkLayout_qs (h : v.Fits) (hs : v.second ≤ 99) (code : FieldCode) (pos : Nat) :
    checkLayout code pos layoutQs (dateBytes v ++ [0x2D#8] ++ dec2 v.second) = none := by
  rw [layoutQs, List.append_assoc, checkLayout_dateBytes h, List.singleton_append, checkLayout_sep]
  simpa [checkLayout] using checkLayout_dec2 (code := code) (pos := pos + 14 + 1) (l := []) (rest := []) hs

/-- The fields stand at the offsets 0, 3, 6, 9 and 12, whatever follows. -/
theorem num2_dateBytes (h : v.Fits) (rest : List Byte) :
    num2 (dateBytes v ++ rest) 0 = v.day ∧ num2 (dateBytes v ++ rest) 3 = v.month ∧
    num2 (dateBytes v ++ rest) 6 = v.year.val % 100 ∧ num2 (dateBytes v ++ rest) 9 = v.hour ∧
    num2 (dateBytes v ++ rest) 12 = v.minute :=
  ⟨digitVal_dec2 h.day, digitVal_dec2 h.month, digitVal_dec2 (by omega), digitVal_dec2 h.hour, digitVal_dec2 h.minute⟩

theorem num2_second (hs : v.second ≤ 99) : num2 (dateBytes v ++ [0x2D#8] ++ dec2 v.second) 15 = v.second :=
  digitVal_dec2 hs

end

/-- The fixed widths are those of the texts (R70, R122). -/
theorem length_of_fixed_bytes (v : SlotVal) (bs : List Byte) :
    (bytesW v = some bs → bs.length = 4) ∧ (bytesQ v = some bs → bs.length = 14) ∧
    (bytesQs v = some bs → bs.length = 17) := by
  cases v
  case int v =>
    refine ⟨fun h => ?_, nofun, nofun⟩
    simp only [bytesW, Option.ite_none_right_eq_some, Option.some.injEq] at h
    exact h.2 ▸ rfl
  case datetime v =>
    refine ⟨nofun, fun h => ?_, fun h => ?_⟩
    · obtain ⟨-, rfl⟩ := bytesQ_some h
      rfl
    · obtain ⟨-, -, rfl⟩ := bytesQs_some h
      rfl
  all_goals exact ⟨nofun, nofun, nofun⟩

/-- Settles O31: each text is taken apart by the lemmas of its parser. -/
theorem fieldsRoundTrip : Obligations.FieldsRoundTrip := by
  refine ⟨fun v bs h => ?_, fun c v bs h => valueB_of_bytesB h, fun v bs h => ?_, fun v bs h => ?_, fun v bs => ?_⟩
  · obtain ⟨n, rfl, hn⟩ := unhexAll_of_bytesW h
    rw [hn]
    rfl
  · obtain ⟨hfit, rfl⟩ := bytesQ_some h
    obtain ⟨h0, h3, h6, h9, h12⟩ := num2_dateBytes hfit []
    rw [List.append_nil] at h0 h3 h6 h9 h12
    exact ⟨checkLayout_q hfit _ _, by rw [h0, h3, h6, h9, h12]⟩
  · obtain ⟨hfit, hs, rfl⟩ := bytesQs_some h
    obtain ⟨h0, h3, h6, h9, h12⟩ := num2_dateBytes hfit ([0x2D#8] ++ dec2 v.second)
    rw [← List.append_assoc] at h0 h3 h6 h9 h12
    exact ⟨checkLayout_qs hfit hs _ _, by rw [h0, h3, h6, h9, h12, num2_second hs]⟩
  · obtain ⟨hw, hq, hqs⟩ := length_of_fixed_bytes v bs
    exact ⟨fun h => ⟨hw h, by rw [hw h]; rfl⟩, fun h => ⟨hq h, by rw [hq h]; rfl⟩, fun h => ⟨hqs h, by rw [hqs h]; rfl⟩⟩

/-- What a position of a layout asks of a byte. -/
def DatePos.holds : DatePos → Byte → Bool
  | .digit, b => isDigit b
  | .sep w, b => b == w

/-- What is reported of a byte that does not hold its position (R236 (d)). -/
def DatePos.offence (code : FieldCode) (pos : Nat) (b : Byte) : DatePos → DecodeInfo
  | .digit => .parseAt code pos b
  | .sep w => .expected pos (some b) w

theorem checkLayout_cons (code : FieldCode) (pos : Nat) (d : DatePos) (l : List DatePos) (b : Byte) (raw : List Byte) :
    checkLayout code pos (d :: l) (b :: raw) =
      if d.holds b then checkLayout code (pos + 1) l raw else some (d.offence code pos b) := by
  cases d with
  | digit => rfl
  | sep w =>
    simp only [checkLayout, DatePos.holds, beq_iff_eq]
    rfl

/-- The offsets are checked in order, so the first that does not hold is the one reported. -/
theorem checkLayout_of_first_bad {code : FieldCode} {layout : List DatePos} {raw : List Byte} {o : Nat} {d : DatePos}
    {b : Byte} (hd : layout[o]? = some d) (hb : raw[o]? = some b) (hbad : d.holds b = false)
    (hpre : ∀ o' < o, ∀ d', layout[o']? = some d' → ∃ x, raw[o']? = some x ∧ d'.holds x = true) (pos : Nat) :
    checkLayout code pos layout raw = some (d.offence code (pos + o) b) := by
  induction o generalizing layout raw pos with
  | zero =>
    obtain ⟨l, rfl⟩ := List.head?_eq_some_iff.1 (List.head?_eq_getElem?.trans hd)
    obtain ⟨bs, rfl⟩ := List.head?_eq_some_iff.1 (List.head?_eq_getElem?.trans hb)
    rw [checkLayout_cons, hbad]
    rfl
  | succ o ih =>
    cases layout with
    | nil => cases hd
    | cons d' l =>
      obtain ⟨x, hx, hholds⟩ := hpre 0 (Nat.succ_pos o) d' rfl
      obtain ⟨bs, rfl⟩ := List.head?_eq_some_iff.1 (List.head?_eq_getElem?.trans hx)
      rw [checkLayout_cons, if_pos hholds, ih hd hb (fun o' ho' d'' hd'' => hpre (o' + 1) (by omega) d'' hd''),
        Nat.add_assoc, Nat.add_comm 1]

/-- A digit byte is the digit of a number below ten (R75). -/
theorem isDigit_iff {b : Byte} : isDigit b = true ↔ ∃ n < 10, b = decimalDigit n := by
  constructor
  · intro h
    have hrange := of_decide_eq_true h
    refine ⟨b.toNat - 0x30, by omega, BitVec.eq_of_toNat_eq ?_⟩
    have := b.isLt
    rw [decimalDigit, BitVec.toNat_ofNat]
    omega
  · rintro ⟨n, hn, rfl⟩
    exact isDigit_digit hn

section
variable {code : FieldCode} {layout : List DatePos} {secs : List Byte → Nat} {raw : List Byte} {k : Kind} {s : State}

theorem fieldDate_of_layout (h : checkLayout code (s.pc - raw.length) layout raw = none) :
    fieldDate code layout secs raw k s = putSlot (.datetime
      ⟨num2 raw 0, num2 raw 3, Fin.ofNat 65536 (num2 raw 6), num2 raw 9, num2 raw 12, secs raw⟩) k s := by
  rw [fieldDate, h]

theorem fieldDate_of_offence {info : DecodeInfo}
    (h : checkLayout code (s.pc - raw.length) layout raw = some info) :
    fieldDate code layout secs raw k s = .next (raised (.decodeMismatch info) s) := by
  rw [fieldDate, h]
  rfl

end

section
variable {s : State} {p : List Byte} {v : DateTime}

/-- A taken run as long as asked for ends inside the payload. -/
theorem le_length_of_take {c w : Nat} {raw : List Byte} (h : (p.drop c).take w = raw) (hw : raw.length = w)
    (h0 : 0 < w) : c + w ≤ p.length := by
  have := congrArg List.length h
  rw [List.length_take, List.length_drop, hw] at this
  omega

theorem year_of_fits (h : v.year.val ≤ 99) : Fin.ofNat 65536 (v.year.val % 100) = v.year :=
  Fin.ext (by rw [Fin.val_ofNat]; omega)

/-- The layout's bytes fill the placeholder (R117). -/
theorem exec_fdQ_of_dateBytes (hp : Memory.readBytes s.pbuf 0 s.plen = some p)
    (hk : slotOutKind s s.sc = some .datetime) (hfit : v.Fits) (hyear : v.year.val ≤ 99)
    (hraw : (p.drop s.pc).take 14 = dateBytes v) :
    exec .fdQ s = putSlot (.datetime { v with second := 0 }) .datetime { s with pc := s.pc + 14 } := by
  have hlen := le_length_of_take hraw (length_dateBytes v) (by decide)
  obtain ⟨h0, h3, h6, h9, h12⟩ := num2_dateBytes hfit []
  rw [List.append_nil] at h0 h3 h6 h9 h12
  rw [exec_fdQ, fdTyped_of_width hp (fieldWidth_of_fixed rfl hlen) hk rfl, hraw,
    fieldDate_of_layout (checkLayout_q hfit _ _), h0, h3, h6, h9, h12, year_of_fits hyear]

/-- The same with the seconds (R118). -/
theorem exec_fdQs_of_dateBytes (hp : Memory.readBytes s.pbuf 0 s.plen = some p)
    (hk : slotOutKind s s.sc = some .datetime) (hfit : v.Fits) (hyear : v.year.val ≤ 99) (hsec : v.second ≤ 99)
    (hraw : (p.drop s.pc).take 17 = dateBytes v ++ [0x2D#8] ++ dec2 v.second) :
    exec .fdQs s = putSlot (.datetime v) .datetime { s with pc := s.pc + 17 } := by
  have hlen := le_length_of_take hraw rfl (by decide)
  obtain ⟨h0, h3, h6, h9, h12⟩ := num2_dateBytes hfit ([0x2D#8] ++ dec2 v.second)
  rw [← List.append_assoc] at h0 h3 h6 h9 h12
  rw [exec_fdQs, fdTyped_of_width hp (fieldWidth_of_fixed rfl hlen) hk rfl, hraw,
    fieldDate_of_layout (checkLayout_qs hfit hsec _ _), h0, h3, h6, h9, h12, num2_second hsec, year_of_fits hyear]

end

/-- The two date-time codes with their layouts; the width of the code is the length of its layout. -/
theorem exec_date_of_offence {i : Instr} {code : FieldCode} {layout : List DatePos} {s : State} {p : List Byte}
    {o : Nat} {d : DatePos} {b : Byte}
    (hi : (i, code, layout) ∈ [(Instr.fdQ, FieldCode.q, layoutQ), (.fdQs, .qs, layoutQs)])
    (hp : Memory.readBytes s.pbuf 0 s.plen = some p) (hk : slotOutKind s s.sc = some .datetime)
    (hlen : s.pc + layout.length ≤ p.length) (hd : layout[o]? = some d) (hb : p[s.pc + o]? = some b)
    (hbad : d.holds b = false)
    (hpre : ∀ o' < o, ∀ d', layout[o']? = some d' → ∃ x, p[s.pc + o']? = some x ∧ d'.holds x = true) :
    exec i s = .next (raised (.decodeMismatch (d.offence code (s.pc + o) b)) { s with pc := s.pc + layout.length }) := by
  have ho : o < layout.length := (List.getElem?_eq_some_iff.1 hd).1
  have hbyte : ∀ j < layout.length, ((p.drop s.pc).take layout.length)[j]? = p[s.pc + j]? := fun j hj => by
    rw [List.getElem?_take_of_lt hj, List.getElem?_drop]
  have hlay : checkLayout code (s.pc + layout.length - ((p.drop s.pc).take layout.length).length) layout
      ((p.drop s.pc).take layout.length) = some (d.offence code (s.pc + o) b) := by
    have hraw : ((p.drop s.pc).take layout.length).length = layout.length := by
      rw [List.length_take, List.length_drop]
      omega
    rw [hraw, Nat.add_sub_cancel]
    exact checkLayout_of_first_bad hd ((hbyte o ho).trans hb) hbad
      (fun o' ho' d' hd' => by rw [hbyte o' (by omega)]; exact hpre o' ho' d' hd') s.pc
  simp only [List.mem_cons, Prod.mk.injEq, List.not_mem_nil, or_false] at hi
  obtain ⟨rfl, rfl, rfl⟩ | ⟨rfl, rfl, rfl⟩ := hi
  · rw [exec_fdQ, fdTyped_of_width hp (fieldWidth_of_fixed rfl hlen) hk rfl]
    exact fieldDate_of_offence hlay
  · rw [exec_fdQs, fdTyped_of_width hp (fieldWidth_of_fixed rfl hlen) hk rfl]
    exact fieldDate_of_offence hlay

/-- Settles O26: the bytes of a date fill the placeholder, and the first offset that does not hold its position is
reported. -/
theorem dateFieldsDecode : Obligations.DateFieldsDecode := by
  refine ⟨fun s p v d2 bs hp hk hd2 hday hmonth hyear hhour hminute hsec hbs => ?_,
    fun s p i code layout o b hi hp hk hlen hb hpre => ?_⟩
  · obtain rfl : d2 = dec2 := funext hd2
    have hfit : v.Fits := ⟨hday, hmonth, hhour, hminute⟩
    have hdate : bs = dateBytes v := by rw [hbs, dateBytes, Nat.mod_eq_of_lt (by omega)]
    subst hdate
    exact ⟨fun hraw => exec_fdQ_of_dateBytes hp hk hfit hyear hraw,
      fun hraw => exec_fdQs_of_dateBytes hp hk hfit hyear hsec hraw⟩
  · have hpre' : ∀ o' < o, ∀ d', layout[o']? = some d' → ∃ x, p[s.pc + o']? = some x ∧ d'.holds x = true := by
      intro o' ho' d' hd'
      cases d' with
      | digit =>
        obtain ⟨n, hn, hx⟩ := (hpre o' ho').1 hd'
        exact ⟨_, hx, isDigit_digit hn⟩
      | sep w => exact ⟨w, (hpre o' ho').2 w hd', beq_self_eq_true w⟩
    refine ⟨fun x hd hne => ?_, fun hd hne => ?_⟩
    · exact exec_date_of_offence hi hp hk hlen hd hb (beq_eq_false_iff_ne.2 hne) hpre'
    · refine exec_date_of_offence hi hp hk hlen hd hb (Bool.eq_false_iff.2 fun hdig => ?_) hpre'
      obtain ⟨n, hn, rfl⟩ := isDigit_iff.1 hdig
      exact hne n hn rfl

end Sys2Proof.Machine
end

section
/-! FRM: a frame that is built and then received (spec/42_frame_codec.md R142 to R153, R156). -/

namespace Sys2Proof.Machine

open Safety

theorem runSteps_one {s t : State} (h : step s = .next t) : runSteps 1 s = .next t := runSteps_succ h 0

theorem runSteps_trans {a b : Nat} {s t : State} {o : Out} (h : runSteps a s = .next t) (h' : runSteps b t = o) :
    runSteps (a + b) s = o := (runSteps_add h b).trans h'

section
variable {s : State} {c : Bool} {rest : List ChanAnswer}

theorem step_hdr_last {b : Byte} (ha : s.act = .frameDec c) (hw : hostWaits s = true) (hr : s.rxs = .hdr)
    (hx : s.rx = .byte b :: rest) (hcnt : s.rxcnt = 1) (hlen : lenMin s ≤ s.rxlen.toNat) :
    step s = .next { s with
      rx := rest, rxUsed := s.rxUsed + 1, rxnum := b
      fbuf := Memory.writeBytes s.fbuf 1 [s.rxlen, s.rxid, b], rxcnt := rxN s, rxs := .payload } :=
  ((headerIsReadAndLengthChecked s c b rest ha hw hr hx).2.2 _ _ hcnt rfl rfl).1 hlen

/-- Header: START, then the three registers, stored together (R143, R144). -/
theorem runSteps_header {len id num : Byte} (ha : s.act = .frameDec c) (hw : hostWaits s = true)
    (hr : s.rxs = .waitStart) (hx : s.rx = [0x01#8, len, id, num].map ChanAnswer.byte ++ rest)
    (hlen : lenMin s ≤ len.toNat) :
    runSteps 4 s = .next { s with
      rx := rest, rxUsed := s.rxUsed + 4, rxlen := len, rxid := id, rxnum := num
      fbuf := Memory.writeBytes s.fbuf 0 [0x01#8, len, id, num], rxcnt := len.toNat - lenMin s, rxs := .payload } := by
  have hstart : step s = .next { s with
      rx := [len, id, num].map ChanAnswer.byte ++ rest, rxUsed := s.rxUsed + 1
      fbuf := Memory.write s.fbuf 0 0x01#8, rxs := .hdr, rxcnt := 3 } :=
    step_of_run (by rw [fetch_byte ha hw (.inl (by simp [hr])) hx]; simp only [rxByte, hr]; rfl)
  refine (runSteps_succ hstart 3).trans ?_
  refine (runSteps_succ (step_hdr (c := c) (by exact ha) (by exact hw) rfl rfl) 2).trans ?_
  refine (runSteps_succ (step_hdr (c := c) (by exact ha) (by exact hw) rfl rfl) 1).trans ?_
  exact runSteps_one (step_hdr_last (c := c) (by exact ha) (by exact hw) rfl rfl rfl (by exact hlen))

/-- Payload: the bytes that are missing follow those that are there (R146). -/
theorem runSteps_payload {p : List Byte} (ha : s.act = .frameDec c) (hw : hostWaits s = true) (hr : s.rxs = .payload)
    (hcnt : s.rxcnt = p.length) (hle : p.length ≤ rxN s) (hx : s.rx = p.map ChanAnswer.byte ++ rest) :
    runSteps p.length s = .next { s with
      rx := rest, rxUsed := s.rxUsed + p.length, rxcnt := 0
      pbuf := Memory.writeBytes s.pbuf (rxN s - p.length) p
      fbuf := Memory.writeBytes s.fbuf (4 + (rxN s - p.length)) p } := by
  induction p generalizing s with
  | nil =>
    obtain rfl : s.rx = rest := hx
    have hstay : s = { s with rxcnt := 0 } := by rw [← show s.rxcnt = 0 from hcnt]
    exact congrArg Host.Outcome.next hstay
  | cons b p ih =>
    rw [List.length_cons] at hcnt hle
    have hstep := step_payload ha hw hr (by omega) hx
    rw [payloadByte] at hstep
    have hnext : rxN s - s.rxcnt + 1 = rxN s - p.length := by omega
    refine (runSteps_succ hstep p.length).trans ((ih (by exact ha) (by exact hw) (by exact hr) ?_ ?_ rfl).trans ?_)
    · change s.rxcnt - 1 = p.length
      omega
    · change p.length ≤ rxN s
      omega
    · change Host.Outcome.next { s with
        rx := rest, rxUsed := s.rxUsed + 1 + p.length, rxcnt := 0
        pbuf := Memory.writeBytes (Memory.write s.pbuf (rxN s - s.rxcnt) b) (rxN s - p.length) p
        fbuf := Memory.writeBytes (Memory.write s.fbuf (4 + (rxN s - s.rxcnt)) b) (4 + (rxN s - p.length)) p } = _
      rw [← hnext, hcnt, ← Nat.add_assoc 4, Nat.add_assoc s.rxUsed, Nat.add_comm 1]
      rfl

/-- A structural byte where it is required: its row runs (R68). -/
theorem step_stmark (ha : s.act = .frameDec c) (hw : hostWaits s = true) (hr : s.rxs = .stmark)
    (hx : s.rx = .byte 0x04#8 :: rest) : step s = exec .stmark { s with rx := rest, rxUsed := s.rxUsed + 1 } :=
  step_of_run (by
    rw [fetch_byte ha hw (.inl (by simp [hr])) hx]; simp only [rxByte, hr]; exact structural_of_eq rfl _ _)

theorem step_pterm (ha : s.act = .frameDec c) (hw : hostWaits s = true) (hr : s.rxs = .pterm)
    (hx : s.rx = .byte 0x05#8 :: rest) : step s = exec .pterm { s with rx := rest, rxUsed := s.rxUsed + 1 } :=
  step_of_run (by
    rw [fetch_byte ha hw (.inl (by simp [hr])) hx]; simp only [rxByte, hr]; exact structural_of_eq rfl _ _)

theorem step_fterm (ha : s.act = .frameDec c) (hw : hostWaits s = true) (hr : s.rxs = .fterm)
    (hx : s.rx = .byte 0x03#8 :: rest) : step s = exec .fterm { s with rx := rest, rxUsed := s.rxUsed + 1 } :=
  step_of_run (by
    rw [fetch_byte ha hw (.inl (by simp [hr])) hx]; simp only [rxByte, hr]; exact structural_of_eq rfl _ _)

/-- Status part: the marker and the six bytes of the block (R147, R148). -/
theorem runSteps_status {b : DeviceStatus} (ha : s.act = .frameDec c) (hw : hostWaits s = true) (hr : s.rxs = .stmark)
    (hx : s.rx = (0x04#8 :: b.toList).map ChanAnswer.byte ++ rest) :
    runSteps 7 s = .next { s with
      rx := rest, rxUsed := s.rxUsed + 7, rxSt := b, rxs := .pterm, rxcnt := 1
      fbuf := Memory.writeBytes s.fbuf (4 + rxN s) (0x04#8 :: b.toList) } := by
  refine (runSteps_succ (step_stmark ha hw hr hx) 6).trans ?_
  refine (runSteps_succ (step_status (c := c) (by exact ha) (by exact hw) rfl rfl) 5).trans ?_
  refine (runSteps_succ (step_status (c := c) (by exact ha) (by exact hw) rfl rfl) 4).trans ?_
  refine (runSteps_succ (step_status (c := c) (by exact ha) (by exact hw) rfl rfl) 3).trans ?_
  refine (runSteps_succ (step_status (c := c) (by exact ha) (by exact hw) rfl rfl) 2).trans ?_
  refine (runSteps_succ (step_status (c := c) (by exact ha) (by exact hw) rfl rfl) 1).trans ?_
  refine (runSteps_one (step_status (c := c) (by exact ha) (by exact hw) rfl rfl)).trans ?_
  have hmark : 5 + (s.rxlen.toNat - if s.expst = true then 43 else 36) =
      4 + (s.rxlen.toNat - if s.expst = true then 43 else 36) + 1 := by omega
  simp [rxN_eq, DeviceStatus.setByte, hmark]
  rfl

/-- The end of the frame: terminator, the four digits as read, frame terminator (R149 to R151). -/
theorem runSteps_trailer {d : Quad} (ha : s.act = .frameDec c) (hw : hostWaits s = true) (hr : s.rxs = .pterm)
    (hx : s.rx = (0x05#8 :: d.toList ++ [0x03#8]).map ChanAnswer.byte ++ rest) :
    runSteps 6 s = .next { s with
      rx := rest, rxUsed := s.rxUsed + 6, rxBcc := d, rxs := .check, rxcnt := 0, flen := rxQ s + 6
      fbuf := Memory.writeBytes s.fbuf (rxQ s) (0x05#8 :: d.toList ++ [0x03#8]) } := by
  refine (runSteps_succ (step_pterm ha hw hr hx) 5).trans ?_
  refine (runSteps_succ (step_bcc (c := c) (by exact ha) (by exact hw) rfl rfl) 4).trans ?_
  refine (runSteps_succ (step_bcc (c := c) (by exact ha) (by exact hw) rfl rfl) 3).trans ?_
  refine (runSteps_succ (step_bcc (c := c) (by exact ha) (by exact hw) rfl rfl) 2).trans ?_
  refine (runSteps_succ (step_bcc (c := c) (by exact ha) (by exact hw) rfl rfl) 1).trans ?_
  exact runSteps_one (step_fterm (c := c) (by exact ha) (by exact hw) rfl rfl)

/-- Header and payload up to the end of PAYLOAD: `n` payload bytes make PLEN `n` (R143 to R146). -/
theorem runSteps_payload_end {len id num : Byte} {p : List Byte} (ha : s.act = .frameDec c) (hw : hostWaits s = true)
    (hr : s.rxs = .waitStart) (hlen : len.toNat = lenMin s + p.length)
    (hx : s.rx = ([0x01#8, len, id, num] ++ p).map ChanAnswer.byte ++ rest) :
    runSteps (4 + p.length + 1) s = .next { s with
      rx := rest, rxUsed := s.rxUsed + (4 + p.length), rxlen := len, rxid := id, rxnum := num
      pbuf := Memory.writeBytes s.pbuf 0 p, plen := p.length
      fbuf := Memory.writeBytes s.fbuf 0 ([0x01#8, len, id, num] ++ p)
      rxs := if s.expst then .stmark else .pterm, rxcnt := 1 } := by
  have hn : len.toNat - lenMin s = p.length := by omega
  have hhead := runSteps_header (rest := p.map ChanAnswer.byte ++ rest) ha hw hr (by simpa using hx) (by omega)
  rw [hn] at hhead
  refine runSteps_trans (runSteps_trans hhead (runSteps_payload (c := c) (by exact ha) (by exact hw) rfl rfl hn.ge rfl))
    (runSteps_one ((step_payload_end (c := c) (by exact ha) (by exact hw) rfl rfl).trans ?_))
  have hn' : (len.toNat - if s.expst = true then 43 else 36) = p.length := hn
  simp [payloadEnd, rxN_eq, hn', Nat.add_assoc]
  rfl

/-- What stands in a frame between payload and terminator: for a device frame the marker and the block (R141). -/
def statusPart : Option DeviceStatus → List Byte
  | none => []
  | some b => 0x04#8 :: b.toList

theorem length_statusPart (st : Option DeviceStatus) : (statusPart st).length = if st.isSome then 7 else 0 := by
  cases st with
  | none => rfl
  | some b => rfl

/-- The parts of a frame, in order. -/
theorem frameBytes_parts (cov : Config.Coverage) (id num : Byte) (p : List Byte) (st : Option DeviceStatus) :
    ∃ d : Quad,
      d = bccDigits cov [0x01#8, BitVec.ofNat 8 (36 + lengthPayload p.length st), id, num] p st ∧
      frameBytes cov id num p st =
        [0x01#8, BitVec.ofNat 8 (36 + lengthPayload p.length st), id, num] ++ p ++ statusPart st ++
          (0x05#8 :: d.toList ++ [0x03#8]) := by
  refine ⟨_, rfl, ?_⟩
  cases st with
  | none => rw [frameBytes_host rfl rfl]; simp [statusPart, lengthPayload, Quad.toList, bccDigits]
  | some b =>
    rw [frameBytes_device rfl rfl]
    simp [statusPart, lengthPayload, Quad.toList, bccDigits, Config.statusPart, Nat.add_assoc]

/-- Between payload and terminator: nothing, or the status part into the block that is held back (R147, R148). -/
theorem runSteps_statusPart {st : Option DeviceStatus} (ha : s.act = .frameDec c) (hw : hostWaits s = true)
    (hr : s.rxs = if s.expst then .stmark else .pterm) (hcnt : s.rxcnt = 1) (he : s.expst = st.isSome)
    (hx : s.rx = (statusPart st).map ChanAnswer.byte ++ rest) :
    runSteps (statusPart st).length s = .next { s with
      rx := rest, rxUsed := s.rxUsed + (statusPart st).length, rxSt := st.getD s.rxSt, rxs := .pterm, rxcnt := 1
      fbuf := Memory.writeBytes s.fbuf (4 + rxN s) (statusPart st) } := by
  cases st with
  | none =>
    obtain rfl : s.rx = rest := hx
    have hr : s.rxs = .pterm := hr.trans (by simp [he])
    have hstay : s = { s with rxs := .pterm, rxcnt := 1 } := by rw [← hr, ← hcnt]
    exact congrArg Host.Outcome.next hstay
  | some b => exact runSteps_status ha hw (hr.trans (by simp [he])) hx

theorem writeBytes_zero_append_append (m : Memory) (as bs cs : List Byte) :
    Memory.writeBytes m 0 (as ++ bs ++ cs) =
      Memory.writeBytes (Memory.writeBytes (Memory.writeBytes m 0 as) as.length bs) (as.length + bs.length) cs := by
  have has : Memory.writeBytes (Memory.writeBytes m 0 as) as.length bs = Memory.writeBytes m 0 (as ++ bs) := by
    simpa using Memory.writeBytes_append m 0 as bs
  rw [has, ← List.length_append]
  simpa using (Memory.writeBytes_append m 0 (as ++ bs) cs).symm

/-- All bytes of a frame: its parts are in the registers and the buffers, and CHECK is next. -/
theorem runSteps_frame {f : List Byte} {id num len : Byte} {p : List Byte} {d : Quad}
    {st : Option DeviceStatus} (ha : s.act = .frameDec c) (hw : hostWaits s = true) (hr : s.rxs = .waitStart)
    (he : s.expst = st.isSome) (hlen : len.toNat = lenMin s + p.length)
    (hf : f = [0x01#8, len, id, num] ++ p ++ statusPart st ++ (0x05#8 :: d.toList ++ [0x03#8]))
    (hx : s.rx = f.map ChanAnswer.byte ++ rest) :
    runSteps (f.length + 1) s = .next { s with
      rx := rest, rxUsed := s.rxUsed + f.length, rxlen := len, rxid := id, rxnum := num
      pbuf := Memory.writeBytes s.pbuf 0 p, plen := p.length
      fbuf := Memory.writeBytes s.fbuf 0 f, flen := f.length
      rxSt := st.getD s.rxSt, rxBcc := d, rxs := .check, rxcnt := 0 } := by
  have hn : len.toNat - (if s.expst = true then 43 else 36) = p.length := by rw [← lenMin_eq]; omega
  have hlength : f.length + 1 = 4 + p.length + 1 + (statusPart st).length + 6 := by
    rw [hf]; simp [Quad.toList]; omega
  have hpart := length_statusPart st
  rw [← he] at hpart
  have hhead := runSteps_payload_end (id := id) (num := num)
    (rest := (statusPart st ++ (0x05#8 :: d.toList ++ [0x03#8])).map ChanAnswer.byte ++ rest) ha hw hr hlen
    (by rw [hx, hf]; simp)
  rw [hlength]
  refine (runSteps_trans (runSteps_trans hhead (runSteps_statusPart (c := c) (st := st)
    (rest := (0x05#8 :: d.toList ++ [0x03#8]).map ChanAnswer.byte ++ rest) (by exact ha) (by exact hw) rfl rfl
    (by exact he) (by simp)))
    (runSteps_trailer (c := c) (d := d) (rest := rest) (by exact ha) (by exact hw) rfl rfl)).trans ?_
  have hfbuf : Memory.writeBytes s.fbuf 0 f =
      Memory.writeBytes (Memory.writeBytes (Memory.writeBytes s.fbuf 0 ([0x01#8, len, id, num] ++ p)) (4 + p.length)
        (statusPart st)) (4 + p.length + (statusPart st).length) (0x05#8 :: d.toList ++ [0x03#8]) := by
    have hhp : ([0x01#8, len, id, num] ++ p).length = 4 + p.length := List.length_append
    rw [hf, writeBytes_zero_append_append, hhp]
  have hflen : f.length = 4 + p.length + (statusPart st).length + 6 := by omega
  simp only [rxN_eq, rxQ_eq, hn, ← hpart, hfbuf, hflen]
  simp only [Nat.add_assoc]

/-- The first bytes of a run that is written inside the buffer read back. -/
theorem readBytes_writeBytes_front (m : Memory) (bs cs : List Byte) (h : bs.length ≤ Config.bufSz) :
    Memory.readBytes (Memory.writeBytes m 0 (bs ++ cs)) 0 bs.length = some bs := by
  rw [← Memory.writeBytes_append, ← Memory.readBytes_writeBytes m 0 bs (by omega)]
  exact Memory.readBytes_congr fun x _ hx => Memory.read_writeBytes_other _ _ _ (.inl hx)

/-- CHECK with matching digits, then DONE for the host (R152, R153). -/
theorem runSteps_accept {h p : List Byte} (ha : s.act = .frameDec false) (hw : hostWaits s = true)
    (hr : s.rxs = .check) (hh : Memory.readBytes s.fbuf 0 4 = some h) (hp : Memory.readBytes s.pbuf 0 (rxN s) = some p)
    (hplen : s.plen = rxN s) (hd : s.rxBcc = bccDigits s.cfg.coverage h p (rxStatus s)) :
    runSteps 2 s = .next (deliver (.received s.rxid s.rxnum p (rxStatus s)) (acceptFrame { s with rxs := .done })) := by
  have hcheck : step s = .next { s with rxs := .done } := by
    rw [step_check ha hw hr, checkFrame_of_reads hh hp, if_pos hd.symm]
  have hp' : Memory.readBytes s.pbuf 0 s.plen = some p := hplen ▸ hp
  refine (runSteps_succ hcheck 1).trans (runSteps_one ?_)
  rw [step_done (c := false) (by exact ha) (by exact hw) rfl, finishFrameDec, if_neg (by decide)]
  exact withPayload_eq (s := { s with rxs := .done }) hp' _

end

theorem rxStatus_of_getD {s : State} {st : Option DeviceStatus} {b : DeviceStatus} (he : s.expst = st.isSome)
    (hb : s.rxSt = st.getD b) : rxStatus s = st := by
  cases st with
  | none => exact rxStatus_of_no_expst he
  | some b' => exact (rxStatus_of_expst he).trans (congrArg some hb)

/-- The status register after DONE (R153). -/
theorem acceptFrame_status {s : State} {st : Option DeviceStatus} {b : DeviceStatus} (he : s.expst = st.isSome)
    (hb : s.rxSt = st.getD b) :
    (∀ b', st = some b' → (acceptFrame s).sr = b' ∧ (acceptFrame s).srv = true) ∧
      (st = none → (acceptFrame s).sr = s.sr ∧ (acceptFrame s).srv = s.srv) := by
  cases st with
  | none => simp [acceptFrame, he]
  | some b' => simp [acceptFrame, he, hb]

/-- Settles O42: the frame is read part by part, then its own digits are compared with themselves. -/
theorem frameRoundTrip : Obligations.FrameRoundTrip := by
  rintro s id num p st rest f ha hr hw he hP rfl hx
  obtain ⟨d, hd, hf⟩ := frameBytes_parts s.cfg.coverage id num p st
  have hflen := length_frameBytes s.cfg.coverage id num p st
  have hpart : lenMin s + p.length = 36 + lengthPayload p.length st := by
    cases st with
    | none => simp [lenMin_eq, he, lengthPayload]
    | some b => simp [lenMin_eq, he, lengthPayload, Config.statusPart]; omega
  have hp : p.length ≤ lengthPayload p.length st := by
    cases st with
    | none => exact le_rfl
    | some b => exact Nat.le_add_right _ _
  have hlen := (toNat_lengthByte hP).trans hpart.symm
  have hn : (BitVec.ofNat 8 (36 + lengthPayload p.length st)).toNat - lenMin s = p.length := by omega
  have hpbuf := Memory.readBytes_writeBytes s.pbuf 0 p (by rw [show Config.bufSz = 1024 from rfl]; omega)
  have hfbuf := Memory.readBytes_writeBytes s.fbuf 0 (frameBytes s.cfg.coverage id num p st)
    (by rw [show Config.bufSz = 1024 from rfl]; omega)
  have hhead : Memory.readBytes (Memory.writeBytes s.fbuf 0 (frameBytes s.cfg.coverage id num p st)) 0 4 =
      some [0x01#8, BitVec.ofNat 8 (36 + lengthPayload p.length st), id, num] := by
    rw [hf, List.append_assoc, List.append_assoc]
    exact readBytes_writeBytes_front _ [_, _, _, _] _ (show 4 ≤ 1024 by decide)
  exact ⟨_, runSteps_trans (b := 2) (runSteps_frame (rest := rest) ha hw hr he hlen hf hx)
      (runSteps_accept (p := p) (by exact ha) (by exact hw) rfl (by exact hhead)
        (by exact (congrArg (Memory.readBytes _ 0) hn).trans hpbuf) (by exact hn.symm)
        (by exact hd.trans (congrArg (bccDigits s.cfg.coverage _ p) (rxStatus_of_getD (by exact he) rfl).symm))),
    rfl, rfl, rfl, congrArg (Result.received id num p) (rxStatus_of_getD (by exact he) rfl), rfl, rfl, rfl, rfl, hpbuf, hfbuf,
    rfl, rfl, acceptFrame_status (by exact he) rfl⟩

end Sys2Proof.Machine
end

section
/-! The moves of the machine: everything a step can do, by the unit that makes it (spec/10_state.md R16 to R18). -/

namespace Sys2Proof.Machine

open Safety

/-- The instructions of the host port. -/
def hosts (i : Instr) : Prop :=
  i ∈ flagRows ∨ (∃ k, i = .stFlag k) ∨ (∃ e, i = .frmDec e) ∨
    i ∈ [Instr.illegal0, .illegalC, .illegalD, .illegalE, .illegalF] ∨
    i ∈ [Instr.bccSum, .bccRender, .bccVerify, .feRun, .fdRun, .frmEncHost, .frmEncDevice, .stHasErr, .stHasWarn,
      .sesCall]

/-- The encoding tokens. -/
def encodes (i : Instr) : Prop := i ∈ [Instr.feW, .feB, .feT, .feQ, .feQs] ∨ ∃ k, i = .feLit k

/-- The first bytes and the structural bytes of a frame. -/
def receives (i : Instr) : Prop :=
  i ∈ [Instr.rxStart, .rxNak, .rxBusy, .stmark, .pterm, .fterm] ∨ ∃ b, i = .rxBad b

theorem instr_cases (i : Instr) : hosts i ∨ encodes i ∨ decodes i ∨ receives i ∨ i = .sesNextId := by
  cases i <;> simp [hosts, encodes, decodes, receives, flagRows]

/-- Rows of the host port that neither EXPST nor a flag index belongs to. -/
def plainRows : List Instr :=
  [.illegal0, .illegalC, .illegalD, .illegalE, .illegalF] ++
  [.bccSum, .bccRender, .bccVerify, .feRun, .fdRun, .frmEncHost, .frmEncDevice, .stHasErr, .stHasWarn, .sesCall]

theorem mem_plainRows_of_decodeOp4 : ∀ w : BitVec 4, ∀ i ∈ (decodeOp4 w).toOption, i ∈ plainRows := by decide

theorem hosts_of_decodeOp4 {w : BitVec 4} {i : Instr} (h : decodeOp4 w = .ok i) : hosts i :=
  .inr (.inr (.inr (List.mem_append.1 (mem_plainRows_of_decodeOp4 w i (mem_toOption_of_ok h)))))

theorem hosts_of_decodeOp4Expst {w : BitVec 5} {i : Instr} (h : decodeOp4Expst w = .ok i) : hosts i := by
  unfold decodeOp4Expst at h
  split_ifs at h <;> (obtain rfl := Except.ok.inj h; simp [hosts])

theorem hosts_of_decodeOp4Flag5 {w : BitVec 9} {i : Instr} (h : decodeOp4Flag5 w = .ok i) : hosts i := by
  unfold decodeOp4Flag5 at h
  split_ifs at h
  split at h
  case h_1 j hj => exact Except.ok.inj h ▸ .inl (List.mem_of_getElem? hj)
  case h_2 => exact Except.ok.inj h ▸ .inr (.inl ⟨_, rfl⟩)

/-- A word of the host port decodes to an instruction of the host port (R80). -/
theorem hosts_of_decode {op : BitVec 4} {e : Bool} {k : BitVec 5} {i : Instr}
    (h : decode (portWord op e k) = .ok i) : hosts i := by
  unfold portWord at h
  split_ifs at h
  · exact hosts_of_decodeOp4Expst h
  · exact hosts_of_decodeOp4Flag5 h
  · exact hosts_of_decodeOp4 h

section
variable {s t : State}

/-- What a request of the host can do, in the state that holds its operands (R23, R234, R242). -/
inductive HostMove (s : State) : State → Prop
  | refused : HostMove s (illegal s)
  | answered (r : Result) : HostMove s { s with err := .none, result := r }
  | framed (f : List Byte) (b : Bool) (hf : f.length ≤ s.cfg.payloadMax + 10) :
      HostMove s { s with
        err := .none, result := .frame f, expst := b, fbuf := Memory.writeBytes s.fbuf 0 f, flen := f.length }
  | encoding (p : List Byte) :
      HostMove s { startOp s with act := .fieldEnc false, tmpl := p, tc := 0, pc := 0, sc := 0 }
  | decoding (p : List Byte) :
      HostMove s { startOp s with act := .fieldDec false, tmpl := p, tc := 0, pc := 0, sc := 0, outOk := false }
  | receiving (b : Bool) : HostMove s (startFrameDec false b (startOp s))
  | calling (d : Descriptor) :
      HostMove s { startOp s with ses := .idle, retrycnt := 0, act := .callRound, desc := d }
  | error (e : Err) (a : Activity) (b : Bool) (ha : a = s.act ∨ a = .fieldEnc false ∨ a = .fieldDec false) :
      HostMove s (raised e { s with act := a, expst := b })
  | unknown (e : Err) : HostMove s (raised e { s with ses := .idle, retrycnt := 0, act := .callRound })

theorem hostMove_of_statusQuery {f : DeviceStatus → Bool} (h : statusQuery f s = .next t) : HostMove s t := by
  obtain ⟨-, rfl⟩ | ⟨-, rfl⟩ := statusQuery_cases h
  · exact .answered _
  · exact .error _ s.act s.expst (.inl rfl)

theorem hostMove_of_bccVerify (h : exec .bccVerify s = .next t) : HostMove s t := by
  change execBccVerify s = .next t at h
  unfold execBccVerify at h
  split at h
  · exact Host.Outcome.next.inj h ▸ .answered _
  · exact raise_next.1 h ▸ .error _ s.act s.expst (.inl rfl)

theorem hostMove_of_frameEncode {id num : Byte} {st : Option DeviceStatus}
    (h : frameEncode id num st (startOp s) (fun f u => .next { u with result := .frame f }) = .next t) :
    HostMove s t := by
  obtain ⟨e, rfl⟩ | ⟨p, -, hle, h⟩ := frameEncode_cases h
  · exact .error e s.act _ (.inl rfl)
  · obtain rfl := Host.Outcome.next.inj h
    exact .framed _ _ (length_frameBytes _ _ _ _ _ ▸ Nat.add_le_add_right hle 10)

theorem hostMove_of_sesCall (h : exec .sesCall s = .next t) : HostMove s t := by
  change execSesCall s = .next t at h
  unfold execSesCall at h
  split at h
  · exact raise_next.1 h ▸ .unknown _
  · exact Host.Outcome.next.inj h ▸ .calling _

theorem hostMove_of_feRun (h : exec .feRun s = .next t) : HostMove s t := by
  obtain ⟨e, -, rfl⟩ | ⟨-, rfl⟩ := startFieldEnc_cases (exec_feRun s ▸ h)
  · exact .error e _ s.expst (.inr (.inl rfl))
  · exact .encoding _

theorem hostMove_of_fdRun (h : exec .fdRun s = .next t) : HostMove s t := by
  obtain ⟨e, -, rfl⟩ | ⟨-, rfl⟩ := startFieldDec_cases (exec_fdRun s ▸ h)
  · exact .error e _ s.expst (.inr (.inr rfl))
  · exact .decoding _

theorem hostMove_of_stFlag {k : BitVec 5} (h : exec (.stFlag k) s = .next t) : HostMove s t := by
  change execStFlag k s = .next t at h
  unfold execStFlag at h
  split at h
  · exact hostMove_of_statusQuery h
  · exact Host.Outcome.next.inj h ▸ .refused

theorem hostMove_of_flagRow {i : Instr} (hi : i ∈ flagRows) (h : exec i s = .next t) : HostMove s t := by
  obtain ⟨k, hk⟩ := List.mem_iff_getElem?.1 hi
  have hlt : k < 22 := (List.getElem?_eq_some_iff.1 hk).1
  obtain ⟨f, hf⟩ := getElem?_allFlags_of_lt hlt
  rw [exec_flagRow hk hf] at h
  exact hostMove_of_statusQuery h

theorem hostMove_of_exec {i : Instr} (hi : hosts i) (h : exec i s = .next t) : HostMove s t := by
  obtain hi | ⟨k, rfl⟩ | ⟨e, rfl⟩ | hi | hi := hi
  · exact hostMove_of_flagRow hi h
  · exact hostMove_of_stFlag h
  · exact Host.Outcome.next.inj h ▸ .receiving e
  · rw [exec_of_refusedRequest (refusedRequest_of_illegal_selector hi)] at h
    exact Host.Outcome.next.inj h ▸ .refused
  · simp only [List.mem_cons, List.not_mem_nil, or_false] at hi
    obtain rfl | rfl | rfl | rfl | rfl | rfl | rfl | rfl | rfl | rfl := hi
    · exact Host.Outcome.next.inj h ▸ .answered _
    · exact Host.Outcome.next.inj h ▸ .answered _
    · exact hostMove_of_bccVerify h
    · exact hostMove_of_feRun h
    · exact hostMove_of_fdRun h
    · exact hostMove_of_frameEncode (exec_frmEncHost s ▸ h)
    · exact hostMove_of_frameEncode (exec_frmEncDevice s ▸ h)
    · exact hostMove_of_statusQuery h
    · exact hostMove_of_statusQuery h
    · exact hostMove_of_sesCall h

/-- What an encoding token can do: emit its bytes where they fit, or raise. A typed token takes a slot of the host. -/
inductive EncMove (s : State) : State → Prop
  | emitted (bs : List Byte) (n : Nat) (hfit : s.pc + bs.length ≤ Config.bufSz) (hn : n ≤ s.sc ∨ n ≤ s.inCnt) :
      EncMove s { s with
        pbuf := Memory.writeBytes s.pbuf s.pc bs, pc := s.pc + bs.length, tc := s.tc + 1, sc := n }
  | error (e : Err) (n : Nat) (hn : n ≤ s.sc ∨ n ≤ s.inCnt) : EncMove s (raised e { s with sc := n })

theorem encMove_of_emit {bs : List Byte} {n : Nat} (hn : n ≤ s.sc ∨ n ≤ s.inCnt)
    (h : emit bs { s with sc := n } = .next t) : EncMove s t := by
  obtain ⟨hfit, rfl⟩ | rfl := emit_cases h
  · exact .emitted bs n hfit hn
  · exact .error _ n hn

theorem encMove_of_feTyped {code : FieldCode} {f : SlotVal → Option (List Byte)} (h : feTyped code f s = .next t) :
    EncMove s t := by
  have hstay : s.sc ≤ s.sc ∨ s.sc ≤ s.inCnt := .inl le_rfl
  cases hv : slotInVal s s.sc with
  | none =>
    rw [feTyped_of_no_value hv] at h
    exact raise_next.1 h ▸ .error _ s.sc hstay
  | some v =>
    have hnext : s.sc + 1 ≤ s.sc ∨ s.sc + 1 ≤ s.inCnt := .inr (slotInVal_lt hv)
    simp only [feTyped, hv] at h
    split at h
    · split at h
      · exact encMove_of_emit hnext h
      · exact raise_next.1 h ▸ .error _ _ hnext
    · exact raise_next.1 h ▸ .error _ s.sc hstay

theorem encMove_of_exec {i : Instr} (hi : encodes i) (h : exec i s = .next t) : EncMove s t := by
  obtain hi | ⟨k, rfl⟩ := hi
  · simp only [List.mem_cons, List.not_mem_nil, or_false] at hi
    obtain rfl | rfl | rfl | rfl | rfl := hi
    · exact encMove_of_feTyped h
    · exact encMove_of_feTyped h
    · exact encMove_of_feTyped h
    · exact encMove_of_feTyped h
    · exact encMove_of_feTyped h
  · exact encMove_of_emit (n := s.sc) (.inl le_rfl) h

/-- What `FRM.DEC` can do, in the state that follows the answer of the channel it has read, if its step reads one
(R143 to R153). `c`: inside `SES.CALL`. -/
inductive RxMove (c : Bool) (s : State) : State → Prop
  | started (hr : s.rxs = .waitStart) :
      RxMove c s { s with fbuf := Memory.write s.fbuf 0 0x01#8, rxs := .hdr, rxcnt := 3 }
  | busy (n : Nat) : RxMove c s { s with busycnt := n }
  | len (b : Byte) (hr : s.rxs = .hdr) (hcnt : s.rxcnt = 3) : RxMove c s { s with rxlen := b, rxcnt := 2 }
  | id (b : Byte) (hr : s.rxs = .hdr) (hcnt : s.rxcnt = 2) : RxMove c s { s with rxid := b, rxcnt := 1 }
  | num (b : Byte) (hr : s.rxs = .hdr) (hlen : lenMin s ≤ s.rxlen.toNat) :
      RxMove c s { s with
        rxnum := b, fbuf := Memory.writeBytes s.fbuf 1 [s.rxlen, s.rxid, b], rxcnt := rxN s, rxs := .payload }
  | payload (b : Byte) (hr : s.rxs = .payload) (hcnt : s.rxcnt ≠ 0) :
      RxMove c s { s with
        pbuf := Memory.write s.pbuf (rxN s - s.rxcnt) b, fbuf := Memory.write s.fbuf (4 + (rxN s - s.rxcnt)) b
        rxcnt := s.rxcnt - 1 }
  | payloadEnd (hr : s.rxs = .payload) (hcnt : s.rxcnt = 0) :
      RxMove c s { s with plen := rxN s, rxs := if s.expst then .stmark else .pterm, rxcnt := 1 }
  | stmark (hr : s.rxs = .stmark) :
      RxMove c s { s with fbuf := Memory.write s.fbuf (4 + rxN s) 0x04#8, rxs := .status, rxcnt := 6 }
  | status (b : Byte) (hr : s.rxs = .status) :
      RxMove c s { s with
        rxSt := s.rxSt.setByte (6 - s.rxcnt) b, fbuf := Memory.write s.fbuf (5 + rxN s + (6 - s.rxcnt)) b
        rxs := if s.rxcnt ≤ 1 then .pterm else .status, rxcnt := if s.rxcnt ≤ 1 then 1 else s.rxcnt - 1 }
  | pterm (hr : s.rxs = .pterm) :
      RxMove c s { s with fbuf := Memory.write s.fbuf (rxQ s) 0x05#8, rxs := .bcc, rxcnt := 4 }
  | bcc (b : Byte) (hr : s.rxs = .bcc) :
      RxMove c s { s with
        rxBcc := s.rxBcc.setByte (4 - s.rxcnt) b, fbuf := Memory.write s.fbuf (rxQ s + 1 + (4 - s.rxcnt)) b
        rxs := if s.rxcnt ≤ 1 then .fterm else .bcc, rxcnt := if s.rxcnt ≤ 1 then 1 else s.rxcnt - 1 }
  | fterm (hr : s.rxs = .fterm) :
      RxMove c s { s with
        fbuf := Memory.write s.fbuf (rxQ s + 5) 0x03#8, flen := rxQ s + 6, rxs := .check, rxcnt := 0 }
  | checked (hr : s.rxs = .check) : RxMove c s { s with rxs := .done }
  | accepted (hr : s.rxs = .done) (hc : c = true) : RxMove c s { acceptFrame s with act := .callStatus }
  | delivered (r : Result) (hr : s.rxs = .done) (hc : c = false) : RxMove c s (deliver r (acceptFrame s))
  | error (e : Err) (n k : Nat) (hk : k ≤ s.rxcnt) : RxMove c s (raised e { s with busycnt := n, rxcnt := k })

theorem rxMove_of_raise {c : Bool} {e : Err} (h : raise e s = .next t) : RxMove c s t :=
  raise_next.1 h ▸ .error e s.busycnt s.rxcnt le_rfl

/-- BUSY is counted; past the limit it raises with its count (R143, R232). -/
theorem rxBusy_cases (h : exec .rxBusy s = .next t) :
    t = { s with busycnt := s.busycnt + 1 } ∨ ∃ e, t = raised e { s with busycnt := s.busycnt + 1 } := by
  change execRxBusy s = .next t at h
  unfold execRxBusy at h
  split at h
  · exact .inl (Host.Outcome.next.inj h).symm
  · split at h
    · exact .inr ⟨_, raise_next.1 h⟩
    · exact .inl (Host.Outcome.next.inj h).symm

theorem rxMove_of_rxBusy {c : Bool} (h : exec .rxBusy s = .next t) : RxMove c s t := by
  obtain rfl | ⟨e, rfl⟩ := rxBusy_cases h
  · exact .busy _
  · exact .error e _ s.rxcnt le_rfl

theorem rxMove_of_decodeRxFirst {c : Bool} {b : Byte} (hr : s.rxs = .waitStart)
    (h : exec (decodeRxFirst b) s = .next t) : RxMove c s t := by
  unfold decodeRxFirst at h
  split_ifs at h
  · exact Host.Outcome.next.inj h ▸ .started hr
  · exact rxMove_of_raise h
  · exact rxMove_of_rxBusy h
  · exact rxMove_of_raise h

theorem rxMove_of_hdrByte {c : Bool} {b : Byte} (hr : s.rxs = .hdr) (h : hdrByte b s = .next t) : RxMove c s t := by
  unfold hdrByte at h
  split_ifs at h with h3 h2 hlen
  · exact Host.Outcome.next.inj h ▸ .len b hr h3
  · exact Host.Outcome.next.inj h ▸ .id b hr h2
  · exact raise_next.1 h ▸ .error _ s.busycnt 0 (Nat.zero_le _)
  · exact Host.Outcome.next.inj h ▸ .num b hr (Nat.not_lt.1 hlen)

/-- The outcome of what is fetched. -/
def Fetched.out : Fetched → Out
  | .run i s => exec i s
  | .done o => o

theorem step_eq_out (s : State) : step s = (fetch s).out := by
  rw [step]
  cases fetch s with
  | run i u => rfl
  | done o => rfl

/-- A required byte runs its row; any other raises. -/
theorem rxMove_of_structural {c : Bool} {want b : Byte} {i : Instr} {pos : Nat} (hd : decode (.wire8 want) = .ok i)
    (hi : exec i s = .next t → RxMove c s t) (h : (structural want pos b s).out = .next t) : RxMove c s t := by
  by_cases hb : b = want
  · subst hb
    rw [structural_of_eq hd] at h
    exact hi h
  · rw [structural_of_ne hb] at h
    exact rxMove_of_raise h

theorem rxMove_of_rxByte {c : Bool} {b : Byte} (hread : readsChannel s) (h : (rxByte b s).out = .next t) :
    RxMove c s t := by
  simp only [readsChannel, List.mem_cons, List.not_mem_nil, or_false] at hread
  obtain (hr | hr | hr | hr | hr | hr | hr) | ⟨hr, hcnt⟩ := hread
  all_goals simp only [rxByte, hr] at h
  · exact rxMove_of_decodeRxFirst hr h
  · exact rxMove_of_hdrByte hr h
  · exact rxMove_of_structural (i := .stmark) rfl (fun h => Host.Outcome.next.inj h ▸ .stmark hr) h
  · exact Host.Outcome.next.inj h ▸ .status b hr
  · exact rxMove_of_structural (i := .pterm) rfl (fun h => Host.Outcome.next.inj h ▸ .pterm hr) h
  · exact Host.Outcome.next.inj h ▸ .bcc b hr
  · exact rxMove_of_structural (i := .fterm) rfl (fun h => Host.Outcome.next.inj h ▸ .fterm hr) h
  · exact Host.Outcome.next.inj h ▸ .payload b hr (Nat.ne_of_gt hcnt)

theorem rxMove_of_checkFrame {c : Bool} (hr : s.rxs = .check) (h : checkFrame s = .next t) : RxMove c s t := by
  obtain ⟨_, -, h⟩ := withFbuf_next h
  obtain ⟨_, -, h⟩ := withPbuf_next h
  split_ifs at h
  · exact Host.Outcome.next.inj h ▸ .checked hr
  · exact rxMove_of_raise h

theorem rxMove_of_finishFrameDec {c : Bool} (hr : s.rxs = .done) (h : finishFrameDec c s = .next t) : RxMove c s t := by
  cases c with
  | true => exact Host.Outcome.next.inj h ▸ .accepted hr rfl
  | false =>
    obtain ⟨_, -, h⟩ := withPayload_next (k := fun p => .next (deliver (.received s.rxid s.rxnum p (rxStatus s))
      (acceptFrame s))) h
    exact Host.Outcome.next.inj h ▸ .delivered _ hr rfl

/-- What the stages of `SES.CALL` between its operations can do (R201, R236). -/
inductive CallMove (s : State) : State → Prop
  | round (ha : s.act = .callRound) : CallMove s { s with ses := .sending, act := .callEncode }
  | encoding (ha : s.act = .callEncode) :
      CallMove s { s with act := .fieldEnc true, tmpl := s.desc.hostFormat, tc := 0, pc := 0, sc := 0 }
  | taken (ha : s.act = .callNextId) : CallMove s { s with callId := s.mid, mid := nextMid s.mid, act := .callFrame }
  | framed (ha : s.act = .callFrame) (f : List Byte) (hf : f.length ≤ s.cfg.payloadMax + 10) :
      CallMove s { s with
        expst := false, fbuf := Memory.writeBytes s.fbuf 0 f, flen := f.length, act := .callWrite }
  | written (ha : s.act = .callWrite) (f : List Byte) (hf : Memory.readBytes s.fbuf 0 s.flen = some f) :
      CallMove s (startFrameDec true true (chanWrite f { s with ses := .awaitingResponse }))
  | retried (ha : s.act = .callStatus) :
      CallMove s { s with ses := .retryRequested, retrycnt := s.retrycnt + 1, act := .callRound }
  | decoding (ha : s.act = .callStatus) :
      CallMove s { s with
        act := .fieldDec true, tmpl := s.desc.deviceFormat, tc := 0, pc := 0, sc := 0, outOk := false }
  | error (e : Err) (a : Activity) (b : Bool) (x : Ses) (n : Nat)
      (hs : s.act = .callEncode ∨ s.act = .callFrame ∨ s.act = .callStatus)
      (ha : a = s.act ∨ a = .fieldEnc true ∨ a = .fieldDec true) :
      CallMove s (raised e { s with act := a, expst := b, ses := x, retrycnt := n })

theorem callMove_of_callEncode (ha : s.act = .callEncode) (h : callEncode s = .next t) : CallMove s t := by
  obtain ⟨e, -, rfl⟩ | ⟨-, rfl⟩ := startFieldEnc_cases h
  · exact .error e _ s.expst s.ses s.retrycnt (.inl ha) (.inr (.inl rfl))
  · exact .encoding ha

theorem callMove_of_callFrame (ha : s.act = .callFrame) (h : callFrame s = .next t) : CallMove s t := by
  obtain ⟨e, rfl⟩ | ⟨p, -, hle, h⟩ := frameEncode_cases h
  · exact .error e s.act _ s.ses s.retrycnt (.inr (.inl ha)) (.inl rfl)
  · obtain rfl := Host.Outcome.next.inj h
    exact .framed ha _ (length_frameBytes _ _ _ _ _ ▸ Nat.add_le_add_right hle 10)

theorem callMove_of_callWrite (ha : s.act = .callWrite) (h : callWrite s = .next t) : CallMove s t := by
  obtain ⟨f, hf, h⟩ := withFbuf_next h
  exact Host.Outcome.next.inj h ▸ .written ha f hf

theorem callMove_of_callStatus (ha : s.act = .callStatus) (h : callStatus s = .next t) : CallMove s t := by
  have herr (e : Err) (x : Ses) (n : Nat) : CallMove s (raised e { s with ses := x, retrycnt := n }) :=
    .error e s.act s.expst x n (.inr (.inr ha)) (.inl rfl)
  unfold callStatus at h
  split at h
  · split at h
    · split at h
      · exact raise_next.1 h ▸ herr _ _ _
      · exact Host.Outcome.next.inj h ▸ .retried ha
    · exact Host.Outcome.next.inj h ▸ .retried ha
  · split at h
    · exact raise_next.1 h ▸ herr _ s.ses s.retrycnt
    · obtain ⟨e, -, rfl⟩ | ⟨-, rfl⟩ := startFieldDec_cases h
      · exact .error e _ s.expst s.ses s.retrycnt (.inr (.inr ha)) (.inr (.inr rfl))
      · exact .decoding ha

/-- The end of the token loop of `FE.RUN` (R102, R201). -/
inductive EncEnd (c : Bool) (s : State) : State → Prop
  | host (hc : c = false) : EncEnd c s (deliver .done { s with plen := s.pc })
  | call (hc : c = true) (hle : s.pc ≤ s.cfg.payloadMax) : EncEnd c s { s with plen := s.pc, act := .callNextId }
  | error (e : Err) : EncEnd c s (raised e s)

theorem encEnd_of_finishFieldEnc {c : Bool} (h : finishFieldEnc c s = .next t) : EncEnd c s t := by
  unfold finishFieldEnc at h
  split_ifs at h with hc hlt
  · exact raise_next.1 h ▸ .error _
  · exact Host.Outcome.next.inj h ▸ .call hc (Nat.not_lt.1 hlt)
  · exact Host.Outcome.next.inj h ▸ .host (by simpa using hc)

/-- The end of the token loop of `FD.RUN` (R110, R201). -/
inductive DecEnd (c : Bool) (s : State) : State → Prop
  | host (hc : c = false) : DecEnd c s (deliver .done { s with outOk := true })
  | call (hc : c = true) :
      DecEnd c s (deliver (.response s.rxid s.rxnum s.sr) { s with outOk := true, ses := .decoded })
  | error (e : Err) : DecEnd c s (raised e s)

theorem decEnd_of_finishFieldDec {c : Bool} (h : finishFieldDec c s = .next t) : DecEnd c s t := by
  unfold finishFieldDec at h
  split_ifs at h with hpc hc
  · exact raise_next.1 h ▸ .error _
  · exact Host.Outcome.next.inj h ▸ .call hc
  · exact Host.Outcome.next.inj h ▸ .host (by simpa using hc)

/-- What a write of the host between operations can do (R14, R24, R26, R262). -/
inductive WriteMove (s : State) : State → Prop
  | same : WriteMove s s
  | slotIn (i : Nat) (v : SlotVal) : WriteMove s { s with slotIn := s.slotIn.set i (some v) }
  | inCnt (n : Nat) (hn : n ≤ s.cfg.nslot) : WriteMove s { s with inCnt := n }
  | slotOut (i : Nat) (k : Kind) : WriteMove s { s with slotOut := s.slotOut.set i (some ⟨k, none⟩) }
  | outCnt (n : Nat) (hn : n ≤ s.cfg.nslot) : WriteMove s { s with outCnt := n }
  | statusMap (m : Config.StatusMap) (hm : m.admissible = true) :
      WriteMove s { s with cfg := { s.cfg with statusMap := m } }
  | settings (c : Config.Coverage) (l r : Option Nat) (p : Config.StatusPred) :
      WriteMove s { s with cfg := { s.cfg with coverage := c, busyLimit := l, retryLimit := r, retryPred := p } }
  | legacyCodes : WriteMove s { s with cfg := { s.cfg with legacyCodes := [] } }
  | table (l : List CmdEntry) : WriteMove s { s with table := l, tableBuilt := true }

/-- The host port resets, writes, or refuses. -/
theorem hostWrite_cases {a : HostAct} (h : hostWrite a s = .next t) :
    (a = .reset ∧ t = applyReset s) ∨ WriteMove s t := by
  have hite {p : Prop} [Decidable p] {u : State} {r : Refusal} (hu : p → WriteMove s u)
      (h : (if p then Host.Outcome.next u else .refused r : Out) = .next t) : WriteMove s t := by
    split at h
    case isTrue hp => exact Host.Outcome.next.inj h ▸ hu hp
    case isFalse => cases h
  cases a with
  | reset => exact .inl ⟨rfl, (Host.Outcome.next.inj h).symm⟩
  | start r => exact .inr (Host.Outcome.next.inj h ▸ .same)
  | writeSlotIn i v => exact .inr (hite (fun _ => .slotIn i v) h)
  | writeInCnt n => exact .inr (hite (.inCnt n) h)
  | writeSlotOutKind i k => exact .inr (hite (fun _ => .slotOut i k) h)
  | writeOutCnt n => exact .inr (hite (.outCnt n) h)
  | writeStatusMap m => exact .inr (hite (.statusMap m) h)
  | writeCoverage c =>
    exact .inr (Host.Outcome.next.inj h ▸ .settings c s.cfg.busyLimit s.cfg.retryLimit s.cfg.retryPred)
  | writeBusyLimit l =>
    exact .inr (Host.Outcome.next.inj h ▸ .settings s.cfg.coverage l s.cfg.retryLimit s.cfg.retryPred)
  | writeRetryLimit l =>
    exact .inr (Host.Outcome.next.inj h ▸ .settings s.cfg.coverage s.cfg.busyLimit l s.cfg.retryPred)
  | writeRetryPred p =>
    exact .inr (Host.Outcome.next.inj h ▸ .settings s.cfg.coverage s.cfg.busyLimit s.cfg.retryLimit p)
  | writeLegacyCodes l => exact .inr (hite (fun _ => .legacyCodes) h)
  | buildTable l =>
    change (if s.tableBuilt = true then _ else _) = _ at h
    split at h
    · cases h
    · exact .inr (Host.Outcome.next.inj h ▸ .table l)

/-- A step of the machine. -/
inductive StepMove (s : State) : State → Prop
  | wait : StepMove s s
  | refused (rest : List PortEvent) : StepMove s (illegal { s with port := rest })
  | write {t : State} (rest : List PortEvent) (ha : s.act = .idle) (h : WriteMove { s with port := rest } t) :
      StepMove s t
  | reset (e : Bool) (rest : List PortEvent) (ha : s.act = .idle) (hp : s.port = ⟨e, .reset⟩ :: rest) :
      StepMove s (applyReset { s with port := rest })
  | request {t : State} (o : Operands) (rest : List PortEvent) (ha : s.act = .idle)
      (h : HostMove { s with opnd := o, port := rest } t) : StepMove s t
  | encToken {t : State} {c : Bool} (ha : s.act = .fieldEnc c) (hk : s.tc < s.tmpl.length) (h : EncMove s t) :
      StepMove s t
  | encEnd {t : State} {c : Bool} (ha : s.act = .fieldEnc c) (h : EncEnd c s t) : StepMove s t
  | decToken {t : State} {c : Bool} (ha : s.act = .fieldDec c) (hk : s.tc < s.tmpl.length) (h : DecMove s t) :
      StepMove s t
  | escape {t : State} {c : Bool} {vc : VarCode} (ha : s.act = .unescape c vc) (h : FieldMove s t) :
      StepMove s t
  | decEnd {t : State} {c : Bool} (ha : s.act = .fieldDec c) (h : DecEnd c s t) : StepMove s t
  | receive {t : State} {c : Bool} (ha : s.act = .frameDec c) (h : RxMove c s t) : StepMove s t
  | receiveByte {t : State} {c : Bool} {x : ChanAnswer} {rest : List ChanAnswer} (n : Nat) (ha : s.act = .frameDec c)
      (hr : readsChannel s) (hx : s.rx = x :: rest) (h : RxMove c { s with rx := rest, rxUsed := n } t) : StepMove s t
  | call {t : State} (h : CallMove s t) : StepMove s t

theorem stepMove_of_hostAct {e : Bool} {a : HostAct} {rest : List PortEvent} (ha : s.act = .idle)
    (hp : s.port = ⟨e, a⟩ :: rest) (h : step s = .next t) : StepMove s t := by
  by_cases hstart : ∃ r, a = .start r
  · obtain ⟨r, rfl⟩ := hstart
    obtain ⟨i, hd, -⟩ := portRequestsDecodeAndIllegalOnesAreNamed r.op r.expst r.flag
    rw [step_of_run (fetch_of_idle_request ha hp hd)] at h
    have hmove := hostMove_of_exec (hosts_of_decode hd) h
    rw [latchOperands] at hmove
    split at hmove
    · exact .request s.opnd rest ha hmove
    · exact .request r.operands rest ha hmove
  · rw [step_of_hostWrite ha hp fun r hr => hstart ⟨r, hr⟩] at h
    obtain ⟨rfl, rfl⟩ | h := hostWrite_cases h
    · exact .reset e rest ha hp
    · exact .write rest ha h

theorem stepMove_of_early {a : HostAct} {rest : List PortEvent} (ha : s.act ≠ .idle) (hp : s.port = ⟨true, a⟩ :: rest)
    (h : step s = .next t) : StepMove s t := by
  rw [step_of_done (fetch_of_early ha hp)] at h
  cases a
  case start r => exact Host.Outcome.next.inj h ▸ .refused rest
  all_goals exact nomatch h

theorem encodes_decodeTokenEnc (k : Byte) : encodes (decodeTokenEnc k) := by
  unfold decodeTokenEnc
  split_ifs <;> simp [encodes]

theorem decodes_decodeTokenDec (k : Byte) : decodes (decodeTokenDec k) := by
  unfold decodeTokenDec
  split_ifs <;> simp [decodes]

theorem fieldMove_of_escapeStep {vc : VarCode} (h : (escapeStep vc s).out = .next t) : FieldMove s t := by
  unfold escapeStep at h
  split at h
  · split at h
    · exact fieldMove_of_esc h
    · exact fieldMove_of_resumeField (n := s.pc) id h
  · exact fieldMove_of_resumeField (n := s.pc) id h

theorem stepMove_of_rxRead {c : Bool} (ha : s.act = .frameDec c) (hr : readsChannel s)
    (h : (rxRead s).out = .next t) : StepMove s t := by
  obtain ⟨-, hx⟩ | ⟨rest, hx, hread⟩ | ⟨b, rest, hx, hread⟩ := chanRead_cases s
  · simp only [rxRead, hx] at h
    exact Host.Outcome.next.inj h ▸ .wait
  · simp only [rxRead, hread] at h
    exact .receiveByte s.rxUsed ha hr hx (rxMove_of_raise h)
  · simp only [rxRead, hread] at h
    exact .receiveByte (s.rxUsed + 1) ha hr hx (rxMove_of_rxByte (by exact hr) h)

theorem stepMove_of_rxStep {c : Bool} (ha : s.act = .frameDec c) (h : (rxStep c s).out = .next t) : StepMove s t := by
  by_cases hread : readsChannel s
  · rw [rxStep_of_readsChannel hread] at h
    exact stepMove_of_rxRead ha hread h
  · unfold rxStep at h
    cases hr : s.rxs
    case payload =>
      have hcnt : s.rxcnt = 0 := Nat.eq_zero_of_not_pos fun hpos => hread (.inr ⟨hr, hpos⟩)
      simp only [hr, hcnt, if_true] at h
      exact .receive ha (Host.Outcome.next.inj h ▸ .payloadEnd hr hcnt)
    case check =>
      simp only [hr] at h
      exact .receive ha (rxMove_of_checkFrame hr h)
    case done =>
      simp only [hr] at h
      exact .receive ha (rxMove_of_finishFrameDec hr h)
    case idle => simp only [hr] at h; cases h
    case fail => simp only [hr] at h; cases h
    all_goals exact absurd (.inl (by simp [hr])) hread

/-- A step of an operation the host does not disturb. -/
theorem stepMove_of_running (h : (running s).out = .next t) : StepMove s t := by
  unfold running at h
  split at h
  case h_1 => exact Host.Outcome.next.inj h ▸ .wait
  case h_2 c ha =>
    split at h
    case h_1 k hk =>
      exact .encToken ha (List.getElem?_eq_some_iff.1 hk).1 (encMove_of_exec (encodes_decodeTokenEnc k) h)
    case h_2 => exact .encEnd ha (encEnd_of_finishFieldEnc h)
  case h_3 c ha =>
    split at h
    case h_1 k hk =>
      exact .decToken ha (List.getElem?_eq_some_iff.1 hk).1 (decMove_of_exec (decodes_decodeTokenDec k) h)
    case h_2 => exact .decEnd ha (decEnd_of_finishFieldDec h)
  case h_4 c vc ha => exact .escape ha (fieldMove_of_escapeStep h)
  case h_5 c ha => exact stepMove_of_rxStep ha h
  case h_6 ha => exact .call (Host.Outcome.next.inj h ▸ .round ha)
  case h_7 ha => exact .call (callMove_of_callEncode ha h)
  case h_8 ha =>
    rw [Fetched.out, exec_sesNextId, if_pos ha] at h
    exact .call (Host.Outcome.next.inj h ▸ .taken ha)
  case h_9 ha => exact .call (callMove_of_callFrame ha h)
  case h_10 ha => exact .call (callMove_of_callWrite ha h)
  case h_11 ha => exact .call (callMove_of_callStatus ha h)

/-- A host that does not wait has an early action at the port. -/
theorem exists_early_of_not_waits (hw : ¬ hostWaits s = true) : ∃ a rest, s.port = ⟨true, a⟩ :: rest := by
  unfold hostWaits at hw
  split at hw
  case h_1 => exact absurd rfl hw
  case h_2 e rest hp =>
    obtain ⟨early, a⟩ := e
    obtain rfl : early = true := by simpa using hw
    exact ⟨a, rest, hp⟩

/-- Everything a step can do. -/
theorem stepMove_of_step (h : step s = .next t) : StepMove s t := by
  by_cases ha : s.act = .idle
  · cases hp : s.port with
    | nil =>
      rw [step_eq_out, fetch, hp] at h
      exact stepMove_of_running h
    | cons e rest => exact stepMove_of_hostAct ha hp h
  · by_cases hw : hostWaits s = true
    · rw [step_eq_out, fetch_of_waits hw ha] at h
      exact stepMove_of_running h
    · obtain ⟨a, rest, hp⟩ := exists_early_of_not_waits hw
      exact stepMove_of_early ha hp h

end

end Sys2Proof.Machine
end

section
/-! Who writes the special registers (spec/10_state.md R14, R19, R21, R24, R26, spec/20_memory.md R46, R49). -/

namespace Sys2Proof.Machine

open Safety

/-- The registers and streams whose writers are named. -/
structure Special where
  sr : DeviceStatus
  srv : Bool
  mid : Byte
  slotIn : List (Option SlotVal)
  inCnt : Nat
  outCnt : Nat
  cfg : Config.Configuration
  table : List CmdEntry
  tx : List Byte
  rx : List ChanAnswer
  port : List PortEvent

def special (s : State) : Special :=
  ⟨s.sr, s.srv, s.mid, s.slotIn, s.inCnt, s.outCnt, s.cfg, s.table, s.tx, s.rx, s.port⟩

section
variable {s t : State}

theorem special_of_hostMove (h : HostMove s t) : special t = special s := by
  cases h <;> rfl

theorem special_of_encMove (h : EncMove s t) : special t = special s := by
  cases h <;> rfl

theorem special_of_encEnd {c : Bool} (h : EncEnd c s t) : special t = special s := by
  cases h <;> rfl

theorem special_of_fieldMove (h : FieldMove s t) : special t = special s := by
  cases h <;> rfl

theorem special_of_decMove (h : DecMove s t) : special t = special s := by
  cases h with
  | literal => rfl
  | filled => rfl
  | field h => exact special_of_fieldMove h

theorem special_of_decEnd {c : Bool} (h : DecEnd c s t) : special t = special s := by
  cases h <;> rfl

theorem special_of_receives {i : Instr} (hi : receives i) (h : exec i s = .next t) : special t = special s := by
  obtain hi | ⟨b, rfl⟩ := hi
  · simp only [List.mem_cons, List.not_mem_nil, or_false] at hi
    obtain rfl | rfl | rfl | rfl | rfl | rfl := hi
    · exact Host.Outcome.next.inj h ▸ rfl
    · exact raise_next.1 h ▸ rfl
    · obtain rfl | ⟨e, rfl⟩ := rxBusy_cases h
      · rfl
      · rfl
    all_goals exact Host.Outcome.next.inj h ▸ rfl
  · exact raise_next.1 h ▸ rfl

/-- The first step of every instruction but `SES.NEXTID`. -/
theorem special_of_exec {i : Instr} (hi : i ≠ .sesNextId) (h : exec i s = .next t) : special t = special s := by
  obtain hi' | hi' | hi' | hi' | hi' := instr_cases i
  · exact special_of_hostMove (hostMove_of_exec hi' h)
  · exact special_of_encMove (encMove_of_exec hi' h)
  · exact special_of_decMove (decMove_of_exec hi' h)
  · exact special_of_receives hi' h
  · exact absurd hi' hi

end

/-- Settles O56: the moves of each unit leave the special registers, and `SES.NEXTID` writes MID alone. -/
theorem instructionsLeaveTheSpecialRegisters : Obligations.InstructionsLeaveTheSpecialRegisters := by
  intro i s t h
  by_cases hi : i = .sesNextId
  · subst hi
    rw [exec_sesNextId] at h
    obtain rfl := Host.Outcome.next.inj h
    exact ⟨rfl, rfl, rfl, rfl, rfl, rfl, rfl, rfl, rfl, rfl, fun hne => absurd rfl hne⟩
  · have hkept := special_of_exec hi h
    simp only [special, Special.mk.injEq] at hkept
    obtain ⟨hsr, hsrv, hmid, hslotIn, hinCnt, houtCnt, hcfg, htable, htx, hrx, hport⟩ := hkept
    exact ⟨hsr, hsrv, hslotIn, hinCnt, houtCnt, hcfg, htable, htx, hrx, hport, fun _ => hmid⟩

/-- The writers of the special registers over one step. -/
inductive Written (s t : State) : Prop
  | kept (r : List ChanAnswer) (p : List PortEvent) (hr : r = s.rx ∨ ∃ a, s.rx = a :: r)
      (h : special t = special { s with rx := r, port := p })
  | host (ha : s.act = .idle) (h : (t.sr, t.srv, t.mid, t.rx, t.tx) = (s.sr, s.srv, s.mid, s.rx, s.tx))
  | reset (e : Bool) (rest : List PortEvent) (ha : s.act = .idle) (hp : s.port = ⟨e, .reset⟩ :: rest)
      (h : (t.rx, t.tx) = (s.rx, s.tx))
  | accepted (c : Bool) (ha : s.act = .frameDec c) (hr : s.rxs = .done) (h : special t = special (acceptFrame s))
  | taken (ha : s.act = .callNextId) (h : special t = special { s with mid := nextMid s.mid })
  | sent (ha : s.act = .callWrite) (f : List Byte) (hf : Memory.readBytes s.fbuf 0 s.flen = some f)
      (h : special t = special { s with tx := s.tx ++ f })

section
variable {s t : State}

theorem written_of_special {p : List PortEvent} (h : special t = special { s with port := p }) : Written s t :=
  .kept s.rx p (.inl rfl) h

theorem special_of_rxMove {c : Bool} (h : RxMove c s t) :
    special t = special s ∨ (s.rxs = .done ∧ special t = special (acceptFrame s)) := by
  cases h with
  | accepted hr => exact .inr ⟨hr, rfl⟩
  | delivered r hr => exact .inr ⟨hr, rfl⟩
  | _ => exact .inl rfl

theorem written_of_callMove (h : CallMove s t) : Written s t := by
  cases h with
  | taken ha => exact .taken ha rfl
  | written ha f hf => exact .sent ha f hf rfl
  | _ => exact written_of_special rfl

theorem rxs_ne_done_of_readsChannel (h : readsChannel s) : s.rxs ≠ .done := by
  rintro hr
  simp [readsChannel, hr] at h

theorem written_of_stepMove (h : StepMove s t) : Written s t := by
  cases h with
  | wait => exact written_of_special (p := s.port) rfl
  | refused rest => exact written_of_special (p := rest) rfl
  | write rest ha h => exact .host ha (by cases h <;> rfl)
  | reset e rest ha hp => exact .reset e rest ha hp rfl
  | request o rest ha h => exact written_of_special (p := rest) ((special_of_hostMove h).trans rfl)
  | encToken ha hk h => exact written_of_special (special_of_encMove h)
  | encEnd ha h => exact written_of_special (special_of_encEnd h)
  | decToken ha hk h => exact written_of_special (special_of_decMove h)
  | escape ha h => exact written_of_special (special_of_fieldMove h)
  | decEnd ha h => exact written_of_special (special_of_decEnd h)
  | receive ha h =>
    obtain h | ⟨hr, h⟩ := special_of_rxMove h
    · exact written_of_special h
    · exact .accepted _ ha hr h
  | receiveByte n ha hread hx h =>
    obtain h | ⟨hr, h⟩ := special_of_rxMove h
    · exact .kept _ s.port (.inr ⟨_, hx⟩) h
    · exact absurd hr (rxs_ne_done_of_readsChannel hread)
  | call h => exact written_of_callMove h

end

/-- Settles O57: each writer of `Written` is one of the statement's. -/
theorem writersAreNamed : Obligations.WritersAreNamed := by
  intro s t h
  cases written_of_stepMove (stepMove_of_step h) with
  | kept r p hr h =>
    simp only [special, Special.mk.injEq] at h
    obtain ⟨hsr, hsrv, hmid, hslotIn, hinCnt, houtCnt, hcfg, htable, htx, hrx, -⟩ := h
    exact ⟨fun hne => hne.elim (absurd hsr) (absurd hsrv), fun hne => absurd hmid hne, hrx ▸ hr, .inl htx,
      fun _ => ⟨hslotIn, hinCnt, houtCnt, hcfg, htable⟩⟩
  | host ha h =>
    simp only [Prod.mk.injEq] at h
    obtain ⟨hsr, hsrv, hmid, hrx, htx⟩ := h
    exact ⟨fun hne => hne.elim (absurd hsr) (absurd hsrv), fun hne => absurd hmid hne, .inl hrx, .inl htx,
      fun hne => absurd ha hne⟩
  | reset e rest ha hp h =>
    obtain ⟨hrx, htx⟩ := Prod.mk.inj h
    exact ⟨fun _ => .inr ⟨ha, e, rest, hp⟩, fun _ => .inr ⟨ha, e, rest, hp⟩, .inl hrx, .inl htx,
      fun hne => absurd ha hne⟩
  | accepted c ha hr h =>
    simp only [special, Special.mk.injEq] at h
    obtain ⟨hsr, hsrv, hmid, hslotIn, hinCnt, houtCnt, hcfg, htable, htx, hrx, -⟩ := h
    refine ⟨fun hne => ?_, fun hne => absurd hmid hne, .inl hrx, .inl htx,
      fun _ => ⟨hslotIn, hinCnt, houtCnt, hcfg, htable⟩⟩
    cases he : s.expst with
    | true =>
      rw [acceptFrame_of_expst he] at hsr hsrv
      exact .inl ⟨⟨c, ha⟩, hr, rfl, hsr, hsrv⟩
    | false =>
      rw [acceptFrame_of_no_expst he] at hsr hsrv
      exact hne.elim (absurd hsr) (absurd hsrv)
  | taken ha h =>
    simp only [special, Special.mk.injEq] at h
    obtain ⟨hsr, hsrv, hmid, hslotIn, hinCnt, houtCnt, hcfg, htable, htx, hrx, -⟩ := h
    exact ⟨fun hne => hne.elim (absurd hsr) (absurd hsrv), fun _ => .inl ⟨ha, hmid⟩, .inl hrx, .inl htx,
      fun _ => ⟨hslotIn, hinCnt, houtCnt, hcfg, htable⟩⟩
  | sent ha f hf h =>
    simp only [special, Special.mk.injEq] at h
    obtain ⟨hsr, hsrv, hmid, hslotIn, hinCnt, houtCnt, hcfg, htable, htx, hrx, -⟩ := h
    exact ⟨fun hne => hne.elim (absurd hsr) (absurd hsrv), fun hne => absurd hmid hne, .inl hrx,
      .inr ⟨f, ha, hf, htx⟩, fun _ => ⟨hslotIn, hinCnt, houtCnt, hcfg, htable⟩⟩

end Sys2Proof.Machine
end

section
/-! SEQ: the moves of the sequencer (spec/44_command_session.md R202). -/

namespace Sys2Proof.Machine

open Safety

section
variable {s t : State}

theorem restingSes_of_not_inCall (hs : sesOk s) (ha : s.act.inCall = false) : restingSes s.ses := by
  unfold sesOk at hs
  split at hs
  case h_11 => exact hs
  all_goals simp_all [Activity.inCall]

/-- Inside a call the sequencer is Sending or AwaitingResponse, but at the start of a round. -/
theorem sesMove_failed (hs : sesOk s) (ha : s.act.inCall = true) (hne : s.act ≠ .callRound) :
    sesMove s.ses .failed := by
  have hses : s.ses = .sending ∨ s.ses = .awaitingResponse := by
    rw [inCall_iff] at ha
    simp only [List.mem_cons, List.not_mem_nil, or_false] at ha
    obtain h | h | h | h | h | h | h | h | h | h | h := ha
    case inr.inr.inr.inr.inr.inl => exact absurd h hne
    all_goals simp only [sesOk, h] at hs
    all_goals simp [hs]
  obtain h | h := hses
  · simp [sesMove, h]
  · simp [sesMove, h]

/-- An error of a running operation. -/
theorem ses_of_raised {e : Err} {u : State} (hs : sesOk s) (hact : u.act = s.act) (hses : u.ses = s.ses)
    (hne : s.act ≠ .callRound) : (raised e u).ses = s.ses ∨ sesMove s.ses (raised e u).ses := by
  rw [raised_ses, hact, hses]
  cases ha : s.act.inCall with
  | false => exact .inl rfl
  | true => exact .inr (sesMove_failed hs ha hne)

theorem ses_of_hostMove (hs : restingSes s.ses) (ha : s.act = .idle) (h : HostMove s t) :
    t.ses = s.ses ∨ sesMove s.ses t.ses := by
  cases h with
  | calling d => exact .inr (.inl ⟨hs, .inl rfl⟩)
  | unknown e => exact .inr (.inl ⟨hs, .inr rfl⟩)
  | error e a b hact =>
    have hcall : a.inCall = false := by
      obtain rfl | rfl | rfl := hact
      · rw [ha]; rfl
      · rfl
      · rfl
    exact .inl (if_neg (by simp [hcall]))
  | _ => exact .inl rfl

theorem ses_of_encMove (hs : sesOk s) (hne : s.act ≠ .callRound) (h : EncMove s t) :
    t.ses = s.ses ∨ sesMove s.ses t.ses := by
  cases h with
  | emitted => exact .inl rfl
  | error e n => exact ses_of_raised hs rfl rfl hne

theorem ses_of_encEnd {c : Bool} (hs : sesOk s) (hne : s.act ≠ .callRound) (h : EncEnd c s t) :
    t.ses = s.ses ∨ sesMove s.ses t.ses := by
  cases h with
  | error e => exact ses_of_raised hs rfl rfl hne
  | _ => exact .inl rfl

theorem ses_of_fieldMove (hs : sesOk s) (hne : s.act ≠ .callRound) (h : FieldMove s t) :
    t.ses = s.ses ∨ sesMove s.ses t.ses := by
  cases h with
  | error e n => exact ses_of_raised hs rfl rfl hne
  | _ => exact .inl rfl

theorem ses_of_decMove (hs : sesOk s) (hne : s.act ≠ .callRound) (h : DecMove s t) :
    t.ses = s.ses ∨ sesMove s.ses t.ses := by
  cases h with
  | field h => exact ses_of_fieldMove hs hne h
  | _ => exact .inl rfl

theorem ses_of_decEnd {c : Bool} (hs : sesOk s) (ha : s.act = .fieldDec c) (h : DecEnd c s t) :
    t.ses = s.ses ∨ sesMove s.ses t.ses := by
  cases h with
  | host => exact .inl rfl
  | call hc =>
    subst hc
    simp only [sesOk, ha] at hs
    exact .inr (by simp [sesMove, hs])
  | error e => exact ses_of_raised hs rfl rfl (by simp [ha])

theorem ses_of_rxMove {c : Bool} (hs : sesOk s) (hne : s.act ≠ .callRound) (h : RxMove c s t) :
    t.ses = s.ses ∨ sesMove s.ses t.ses := by
  cases h with
  | error e n k => exact ses_of_raised hs rfl rfl hne
  | _ => exact .inl rfl

theorem ses_of_callMove (hs : sesOk s) (h : CallMove s t) : t.ses = s.ses ∨ sesMove s.ses t.ses := by
  cases h with
  | round ha =>
    simp only [sesOk, ha] at hs
    obtain hs | hs := hs
    · exact .inr (by simp [sesMove, hs])
    · exact .inr (by simp [sesMove, hs])
  | written ha =>
    simp only [sesOk, ha] at hs
    exact .inr (by simp [sesMove, hs])
  | retried ha =>
    simp only [sesOk, ha] at hs
    exact .inr (by simp [sesMove, hs])
  | error e a b x n hact ha =>
    have hcall : s.act.inCall = true ∧ s.act ≠ .callRound := by
      obtain h | h | h := hact <;> simp [h, Activity.inCall]
    have hcall' : a.inCall = true := by
      obtain rfl | rfl | rfl := ha
      · exact hcall.1
      · rfl
      · rfl
    refine .inr ?_
    rw [show (raised e { s with act := a, expst := b, ses := x, retrycnt := n }).ses = .failed from if_pos hcall']
    exact sesMove_failed hs hcall.1 hcall.2
  | _ => exact .inl rfl

theorem ses_of_stepMove (hs : sesOk s) (h : StepMove s t) : t.ses = s.ses ∨ sesMove s.ses t.ses := by
  cases h with
  | wait => exact .inl rfl
  | refused rest => exact .inl rfl
  | write rest ha h => exact .inl (by cases h <;> rfl)
  | reset e rest ha hp => exact .inr (.inl ⟨restingSes_of_not_inCall hs (by rw [ha]; rfl), .inl rfl⟩)
  | request o rest ha h =>
    exact ses_of_hostMove (s := { s with opnd := o, port := rest }) (restingSes_of_not_inCall hs (by rw [ha]; rfl)) ha h
  | encToken ha hk h => exact ses_of_encMove hs (by simp [ha]) h
  | encEnd ha h => exact ses_of_encEnd hs (by simp [ha]) h
  | decToken ha hk h => exact ses_of_decMove hs (by simp [ha]) h
  | escape ha h => exact ses_of_fieldMove hs (by simp [ha]) h
  | decEnd ha h => exact ses_of_decEnd hs ha h
  | receive ha h => exact ses_of_rxMove hs (by simp [ha]) h
  | @receiveByte t c x rest n ha hread hx h =>
    exact ses_of_rxMove (s := { s with rx := rest, rxUsed := n }) hs (by simp [ha]) h
  | call h => exact ses_of_callMove hs h

end

/-- Settles O51: a step keeps SES or makes one of the listed moves. -/
theorem sequencerMovesAsTheDiagram : Obligations.SequencerMovesAsTheDiagram := fun _ _ hsound h hne =>
  (ses_of_stepMove hsound.ses (stepMove_of_step h)).resolve_left hne

end Sys2Proof.Machine
end

section
/-! The invariant of the machine: every move keeps it (spec/10_state.md sections 2 to 7, spec/20_memory.md section 1). -/

namespace Sys2Proof.Machine

open Safety

/-- What a state must hold for an error raised in it to leave a sound state: the rest is spoiled or made anew. -/
structure Raisable (u : State) : Prop where
  midLow : 32 ≤ u.mid.toNat
  midHigh : u.mid.toNat ≤ 127
  slotInLen : u.slotIn.length = u.cfg.nslot
  slotOutLen : u.slotOut.length = u.cfg.nslot
  inCntLe : u.inCnt ≤ u.cfg.nslot
  outCntLe : u.outCnt ≤ u.cfg.nslot
  rxcntLe : u.rxcnt ≤ 255
  tcLe : u.tc ≤ u.tmpl.length
  pcLe : u.pc ≤ Config.bufSz
  scLe : u.sc ≤ u.cfg.nslot
  mapOk : u.cfg.statusMap.admissible = true
  legacyOk : u.cfg.legacyCodes = []
  payloadMaxLe : u.cfg.payloadMax ≤ Config.payloadMax
  rxQuiet : u.act.isFrameDec = false → quietRxs u.rxs
  resting : u.act.inCall = false → restingSes u.ses

section
variable {s t : State}

theorem Raisable.sound {u : State} (h : Raisable u) (e : Err) : SoundState (raised e u) where
  pbufWf := Memory.freeBuffer_wf _
  fbufWf := Memory.freeBuffer_wf _
  midLow := h.midLow
  midHigh := h.midHigh
  slotInLen := h.slotInLen
  slotOutLen := List.length_map _ |>.trans h.slotOutLen
  inCntLe := h.inCntLe
  outCntLe := h.outCntLe
  rxcntLe := h.rxcntLe
  plenLe := spoil_plen_le u
  flenLe := spoil_flen_le u
  tcLe := h.tcLe
  pcLe := h.pcLe
  scLe := h.scLe
  mapOk := h.mapOk
  legacyOk := h.legacyOk
  payloadMaxLe := h.payloadMaxLe
  idQuiet := nofun
  payloadCovers := spoil_covers u
  rxQuiet := fun _ => by
    rw [raised_rxs]
    split
    case isTrue => exact .inr (.inr rfl)
    case isFalse ha => exact h.rxQuiet (by simpa using ha)
  ctl := trivial
  ses := by
    change restingSes (raised e u).ses
    rw [raised_ses]
    split
    case isTrue => exact .inr (.inr rfl)
    case isFalse ha => exact h.resting (by simpa using ha)

theorem raisable_of_sound (h : SoundState s) : Raisable s :=
  { h with resting := restingSes_of_not_inCall h.ses }

theorem sound_of_writeMove (h : SoundState s) (hm : WriteMove s t) : SoundState t := by
  cases hm with
  | same => exact h
  | slotIn i v => exact { h with slotInLen := (List.length_set ..).trans h.slotInLen }
  | inCnt n hn => exact { h with inCntLe := hn }
  | slotOut i k => exact { h with slotOutLen := (List.length_set ..).trans h.slotOutLen }
  | outCnt n hn => exact { h with outCntLe := hn }
  | statusMap m hm => exact { h with mapOk := hm }
  | settings => exact { h with }
  | legacyCodes => exact { h with legacyOk := rfl }
  | table => exact { h with }

theorem sound_applyReset (h : SoundState s) : SoundState (applyReset s) :=
  { resetIsSound with
    slotInLen := List.length_replicate
    slotOutLen := List.length_replicate
    inCntLe := Nat.zero_le _
    outCntLe := Nat.zero_le _
    scLe := Nat.zero_le _
    payloadMaxLe := h.payloadMaxLe }

theorem bufSz_eq : Config.bufSz = 1024 := rfl

theorem covers_zero (m : Memory) : Memory.covers m 0 := fun _ hx => absurd hx (Nat.not_lt_zero _)

/-- A frame within PAYLOAD_MAX fits FBUF. -/
theorem frame_le_bufSz {n : Nat} (h : SoundState s) (hn : n ≤ s.cfg.payloadMax + 10) : n ≤ Config.bufSz := by
  have hmax : s.cfg.payloadMax ≤ 219 := h.payloadMaxLe
  rw [bufSz_eq]
  omega

theorem sound_of_hostMove (h : SoundState s) (ha : s.act = .idle) (hm : HostMove s t) : SoundState t := by
  have hquiet : quietRxs s.rxs := h.rxQuiet (by rw [ha]; rfl)
  have hrest : restingSes s.ses := restingSes_of_not_inCall h.ses (by rw [ha]; rfl)
  cases hm with
  | refused => exact { h with }
  | answered r => exact { h with }
  | framed f b hf =>
    exact { h with
      fbufWf := Memory.writeBytes_wf h.fbufWf 0 f
      flenLe := frame_le_bufSz h hf
      ctl := by simp only [ctlOk, ha] }
  | encoding p =>
    exact { h with
      tcLe := Nat.zero_le _, pcLe := Nat.zero_le _, scLe := Nat.zero_le _
      rxQuiet := fun _ => hquiet, ctl := covers_zero _, ses := hrest }
  | decoding p =>
    exact { h with
      tcLe := Nat.zero_le _, pcLe := Nat.zero_le _, scLe := Nat.zero_le _
      rxQuiet := fun _ => hquiet, ctl := Nat.zero_le _, ses := hrest }
  | receiving b =>
    exact { h with
      rxcntLe := Nat.le_of_ble_eq_true rfl, flenLe := Nat.zero_le _
      idQuiet := nofun, rxQuiet := nofun, ctl := trivial, ses := hrest }
  | calling d => exact { h with rxQuiet := fun _ => hquiet, ctl := trivial, ses := .inl rfl }
  | error e a b hact =>
    refine Raisable.sound ?_ e
    exact { raisable_of_sound h with rxQuiet := fun _ => hquiet, resting := fun _ => hrest }
  | unknown e =>
    refine Raisable.sound ?_ e
    exact { raisable_of_sound h with rxQuiet := fun _ => hquiet, resting := nofun }

theorem sound_of_encMove {c : Bool} (h : SoundState s) (ha : s.act = .fieldEnc c) (hk : s.tc < s.tmpl.length)
    (hm : EncMove s t) : SoundState t := by
  have hctl : Memory.covers s.pbuf s.pc := by simpa only [ctlOk, ha] using h.ctl
  have hsc {n : Nat} (hn : n ≤ s.sc ∨ n ≤ s.inCnt) : n ≤ s.cfg.nslot :=
    hn.elim (fun hn => hn.trans h.scLe) fun hn => hn.trans h.inCntLe
  cases hm with
  | emitted bs n hfit hn =>
    exact { h with
      pbufWf := Memory.writeBytes_wf h.pbufWf s.pc bs
      tcLe := hk, pcLe := hfit, scLe := hsc hn
      payloadCovers := Memory.covers_writeBytes_of_covers h.payloadCovers s.pc bs
      ctl := by simpa only [ctlOk, ha] using Memory.covers_writeBytes hctl bs hfit }
  | error e n hn =>
    refine Raisable.sound ?_ e
    exact { raisable_of_sound h with scLe := hsc hn }

theorem sound_of_encEnd {c : Bool} (h : SoundState s) (ha : s.act = .fieldEnc c) (hm : EncEnd c s t) :
    SoundState t := by
  have hctl : Memory.covers s.pbuf s.pc := by simpa only [ctlOk, ha] using h.ctl
  have hquiet : quietRxs s.rxs := h.rxQuiet (by rw [ha]; rfl)
  have hrest (hc : c = false) : restingSes s.ses := restingSes_of_not_inCall h.ses (by rw [ha]; exact hc)
  cases hm with
  | host hc =>
    exact { h with
      plenLe := h.pcLe, payloadCovers := hctl, rxQuiet := fun _ => hquiet, ctl := trivial
      ses := hrest hc }
  | call hc hle =>
    exact { h with
      plenLe := h.pcLe, payloadCovers := hctl, rxQuiet := fun _ => hquiet, ctl := hle
      ses := by simpa only [sesOk, ha, hc] using h.ses }
  | error e => exact (raisable_of_sound h).sound e

/-- A field that is being decoded, before or at a marker. -/
theorem sound_of_fieldMove {c : Bool} (h : SoundState s) (ha : s.act = .fieldDec c ∨ ∃ vc, s.act = .unescape c vc)
    (hpc : s.pc ≤ s.plen) (hk : s.tc < s.tmpl.length) (hm : FieldMove s t) : SoundState t := by
  have hquiet : quietRxs s.rxs := h.rxQuiet (by obtain ha | ⟨vc, ha⟩ := ha <;> rw [ha] <;> rfl)
  have hcall : s.act.inCall = c := by obtain ha | ⟨vc, ha⟩ := ha <;> rw [ha] <;> rfl
  have hses : (c = true → s.ses = .awaitingResponse) ∧ (c = false → restingSes s.ses) := by
    have := h.ses
    obtain ha | ⟨vc, ha⟩ := ha <;> cases c <;> simpa [sesOk, ha] using this
  have hpc' {n : Nat} (hn : s.pc ≤ s.plen → n ≤ s.plen) : n ≤ Config.bufSz := (hn hpc).trans h.plenLe
  cases hm with
  | error e n hn =>
    refine Raisable.sound ?_ e
    exact { raisable_of_sound h with pcLe := hpc' hn }
  | filled n k v hn hk' =>
    exact { h with
      slotOutLen := (List.length_set ..).trans h.slotOutLen
      tcLe := hk, pcLe := hpc' hn, scLe := (slotOutKind_lt hk').trans_le h.outCntLe
      rxQuiet := fun _ => hquiet, ctl := hn hpc
      ses := by cases c <;> simpa [sesOk, hcall] using hses }
  | marker n vc raw j u hn =>
    exact { h with
      pcLe := hpc' hn, rxQuiet := fun _ => hquiet, ctl := ⟨hn hpc, hk⟩
      ses := by cases c <;> simpa [sesOk, hcall] using hses }

theorem sound_of_decMove {c : Bool} (h : SoundState s) (ha : s.act = .fieldDec c) (hk : s.tc < s.tmpl.length)
    (hm : DecMove s t) : SoundState t := by
  have hpc : s.pc ≤ s.plen := by simpa only [ctlOk, ha] using h.ctl
  cases hm with
  | literal hlt =>
    exact { h with tcLe := hk, pcLe := Nat.le_trans hlt h.plenLe, ctl := by simp only [ctlOk, ha]; exact hlt }
  | filled n k v hn hk' =>
    exact { h with
      slotOutLen := (List.length_set ..).trans h.slotOutLen
      tcLe := hk, pcLe := (hn hpc).trans h.plenLe, scLe := (slotOutKind_lt hk').trans_le h.outCntLe
      ctl := by simpa only [ctlOk, ha] using hn hpc }
  | field h' => exact sound_of_fieldMove h (.inl ha) hpc hk h'

theorem sound_of_decEnd {c : Bool} (h : SoundState s) (ha : s.act = .fieldDec c) (hm : DecEnd c s t) :
    SoundState t := by
  have hquiet : quietRxs s.rxs := h.rxQuiet (by rw [ha]; rfl)
  have hrest (hc : c = false) : restingSes s.ses := restingSes_of_not_inCall h.ses (by rw [ha]; exact hc)
  cases hm with
  | host hc =>
    exact { h with
      rxQuiet := fun _ => hquiet, ctl := trivial, ses := hrest hc }
  | call hc => exact { h with rxQuiet := fun _ => hquiet, ctl := trivial, ses := .inr (.inl rfl) }
  | error e => exact (raisable_of_sound h).sound e

theorem rxN_le (s : State) : rxN s ≤ 255 :=
  Nat.le_trans (Nat.sub_le _ _) (Nat.le_of_lt_succ s.rxlen.isLt)

theorem nextMid_bounds {m : Byte} (hlow : 32 ≤ m.toNat) (hhigh : m.toNat ≤ 127) :
    32 ≤ (nextMid m).toNat ∧ (nextMid m).toNat ≤ 127 := by
  have hcycle := toNat_nextMid_of_cycle (m := m) (k := m.toNat - 32) (by omega)
  omega

theorem sound_of_callMove (h : SoundState s) (hm : CallMove s t) : SoundState t := by
  cases hm with
  | round ha => exact { h with rxQuiet := fun _ => h.rxQuiet (by rw [ha]; rfl), ctl := trivial, ses := rfl }
  | encoding ha =>
    exact { h with
      tcLe := Nat.zero_le _, pcLe := Nat.zero_le _, scLe := Nat.zero_le _
      rxQuiet := fun _ => h.rxQuiet (by rw [ha]; rfl), ctl := covers_zero _
      ses := by simpa only [sesOk, ha] using h.ses }
  | taken ha =>
    have hmid := nextMid_bounds h.midLow h.midHigh
    exact { h with
      midLow := hmid.1, midHigh := hmid.2, rxQuiet := fun _ => h.rxQuiet (by rw [ha]; rfl)
      ctl := by simpa only [ctlOk, ha] using h.ctl
      ses := by simpa only [sesOk, ha] using h.ses }
  | framed ha f hf =>
    have hfit := frame_le_bufSz h hf
    exact { h with
      fbufWf := Memory.writeBytes_wf h.fbufWf 0 f, flenLe := hfit
      rxQuiet := fun _ => h.rxQuiet (by rw [ha]; rfl)
      ctl := by simpa [ctlOk] using Memory.covers_writeBytes (covers_zero s.fbuf) f (by omega)
      ses := by simpa only [sesOk, ha] using h.ses }
  | written ha f hf =>
    exact { h with
      rxcntLe := Nat.le_of_ble_eq_true rfl, flenLe := Nat.zero_le _
      idQuiet := nofun, rxQuiet := nofun, ctl := trivial, ses := rfl }
  | retried ha => exact { h with rxQuiet := fun _ => h.rxQuiet (by rw [ha]; rfl), ctl := trivial, ses := .inr rfl }
  | decoding ha =>
    exact { h with
      tcLe := Nat.zero_le _, pcLe := Nat.zero_le _, scLe := Nat.zero_le _
      rxQuiet := fun _ => h.rxQuiet (by rw [ha]; rfl), ctl := Nat.zero_le _
      ses := by simpa only [sesOk, ha] using h.ses }
  | error e a b x n hact ha =>
    have hquiet : quietRxs s.rxs := h.rxQuiet (by obtain h' | h' | h' := hact <;> rw [h'] <;> rfl)
    have hcall : a.inCall = true := by
      obtain rfl | rfl | rfl := ha
      · obtain h' | h' | h' := hact <;> rw [h'] <;> rfl
      · rfl
      · rfl
    refine Raisable.sound ?_ e
    exact { raisable_of_sound h with
      rxQuiet := fun _ => hquiet, resting := fun hno => absurd (hcall.symm.trans hno) (by decide) }

theorem ctlOk_frameDec {c : Bool} (ha : s.act = .frameDec c) (hrx : rxOk s) : ctlOk s := by
  simp only [ctlOk, ha]
  exact hrx

theorem rxOk_of_sound {c : Bool} (h : SoundState s) (ha : s.act = .frameDec c) : rxOk s := by
  simpa only [ctlOk, ha] using h.ctl

/-- Every index of a frame fits FBUF. -/
theorem rxQ_lt (s : State) : rxQ s + 6 < Config.bufSz := by
  have hn := rxN_le s
  have hq : rxQ s ≤ 4 + rxN s + 7 := by
    rw [rxQ_eq]
    split <;> omega
  rw [bufSz_eq]
  omega

theorem rxQ_of_expst (h : s.expst = true) : rxQ s = 4 + rxN s + 7 := by rw [rxQ_eq, if_pos h]

theorem rxQ_of_no_expst (h : s.expst = false) : rxQ s = 4 + rxN s := by simp [rxQ_eq, h]

theorem covers_write_at {m : Memory} {a n : Nat} (h : Memory.covers m a) (ha : a < 1024) (hn : n = a + 1) (b : Byte) :
    Memory.covers (Memory.write m a b) n :=
  hn ▸ Memory.covers_write_next h ha b

/-- What each byte of a frame leaves for the next state of `FRM.DEC`. -/
theorem rxOk_of_payloadByte {b : Byte} (hrx : rxOk s) (hr : s.rxs = .payload) (hcnt : s.rxcnt ≠ 0)
    (h : payloadByte b s = .next t) : rxOk t := by
  obtain rfl := Host.Outcome.next.inj h
  simp only [rxOk, hr] at hrx ⊢
  obtain ⟨hlen, hle, hp, hf⟩ := hrx
  have hN := rxN_le s
  have hnext : rxN s - (s.rxcnt - 1) = rxN s - s.rxcnt + 1 := by omega
  exact ⟨hlen, Nat.le_trans (Nat.sub_le _ _) hle, covers_write_at hp (by omega) hnext b,
    covers_write_at hf (by omega) (congrArg (4 + ·) hnext) b⟩

theorem rxOk_of_payloadEnd (hrx : rxOk s) (hr : s.rxs = .payload) (hcnt : s.rxcnt = 0)
    (h : payloadEnd s = .next t) : rxOk t := by
  obtain rfl := Host.Outcome.next.inj h
  simp only [rxOk, hr, hcnt, Nat.sub_zero] at hrx
  obtain ⟨hlen, -, hp, hf⟩ := hrx
  by_cases he : s.expst = true
  · simp only [rxOk, if_pos he]
    exact ⟨he, hlen, rfl, hp, hf⟩
  · simp only [rxOk, if_neg he]
    have hq : rxQ s = 4 + rxN s := rxQ_of_no_expst (by simpa using he)
    exact ⟨hlen, rfl, hp, hq.symm ▸ hf⟩

theorem rxOk_of_stmark (hrx : rxOk s) (hr : s.rxs = .stmark) (h : execStmark s = .next t) : rxOk t := by
  obtain rfl := Host.Outcome.next.inj h
  simp only [rxOk, hr] at hrx
  obtain ⟨he, hlen, hplen, hp, hf⟩ := hrx
  have hN := rxN_le s
  exact ⟨he, hlen, hplen, hp, Nat.le_add_left 1 5, Nat.le_refl 6,
    covers_write_at hf (by omega) (show 5 + rxN s + (6 - 6) = 4 + rxN s + 1 by omega) _⟩

theorem rxOk_of_statusByteIn {b : Byte} (hrx : rxOk s) (hr : s.rxs = .status) (h : statusByteIn b s = .next t) :
    rxOk t := by
  obtain rfl := Host.Outcome.next.inj h
  simp only [rxOk, hr] at hrx
  obtain ⟨he, hlen, hplen, hp, hpos, h6, hf⟩ := hrx
  have hN := rxN_le s
  by_cases hlast : s.rxcnt ≤ 1
  · simp only [rxOk, if_pos hlast]
    have hq : rxQ s = 5 + rxN s + (6 - s.rxcnt) + 1 := by rw [rxQ_of_expst he]; omega
    exact ⟨hlen, hplen, hp, covers_write_at hf (by omega) hq b⟩
  · simp only [rxOk, if_neg hlast]
    have hnext : 5 + rxN s + (6 - (s.rxcnt - 1)) = 5 + rxN s + (6 - s.rxcnt) + 1 := by omega
    exact ⟨he, hlen, hplen, hp, Nat.le_sub_one_of_lt (Nat.lt_of_not_le hlast), Nat.le_trans (Nat.sub_le _ _) h6,
      covers_write_at hf (by omega) hnext b⟩

theorem rxOk_of_pterm (hrx : rxOk s) (hr : s.rxs = .pterm) (h : execPterm s = .next t) : rxOk t := by
  obtain rfl := Host.Outcome.next.inj h
  simp only [rxOk, hr] at hrx
  obtain ⟨hlen, hplen, hp, hf⟩ := hrx
  have hq := rxQ_lt s
  rw [bufSz_eq] at hq
  exact ⟨hlen, hplen, hp, Nat.le_add_left 1 3, Nat.le_refl 4, covers_write_at hf (by omega) rfl _⟩

theorem rxOk_of_bccByte {b : Byte} (hrx : rxOk s) (hr : s.rxs = .bcc) (h : bccByte b s = .next t) : rxOk t := by
  obtain rfl := Host.Outcome.next.inj h
  simp only [rxOk, hr] at hrx
  obtain ⟨hlen, hplen, hp, hpos, h4, hf⟩ := hrx
  have hq := rxQ_lt s
  rw [bufSz_eq] at hq
  by_cases hlast : s.rxcnt ≤ 1
  · simp only [rxOk, if_pos hlast]
    exact ⟨hlen, hplen, hp,
      covers_write_at hf (by omega) (show rxQ s + 5 = rxQ s + 1 + (4 - s.rxcnt) + 1 by omega) b⟩
  · simp only [rxOk, if_neg hlast]
    have hnext : rxQ s + 1 + (4 - (s.rxcnt - 1)) = rxQ s + 1 + (4 - s.rxcnt) + 1 := by omega
    exact ⟨hlen, hplen, hp, Nat.le_sub_one_of_lt (Nat.lt_of_not_le hlast), Nat.le_trans (Nat.sub_le _ _) h4,
      covers_write_at hf (by omega) hnext b⟩

theorem rxOk_of_fterm (hrx : rxOk s) (hr : s.rxs = .fterm) (h : execFterm s = .next t) : rxOk t := by
  obtain rfl := Host.Outcome.next.inj h
  simp only [rxOk, hr] at hrx
  obtain ⟨hlen, hplen, hp, hf⟩ := hrx
  have hq := rxQ_lt s
  rw [bufSz_eq] at hq
  exact ⟨hlen, hplen, hp, rfl, covers_write_at hf (by omega) rfl _⟩

theorem covers_of_hdr (hrx : rxOk s) (hr : s.rxs = .hdr) : Memory.covers s.fbuf 1 := by
  simp only [rxOk, hr] at hrx
  exact hrx.2.2

theorem covers_header (hf : Memory.covers s.fbuf 1) (len id num : Byte) :
    Memory.covers (Memory.writeBytes s.fbuf 1 [len, id, num]) 4 :=
  Memory.covers_writeBytes hf [len, id, num] (show 4 ≤ 1024 by decide)

theorem sound_of_rxMove {c : Bool} (h : SoundState s) (ha : s.act = .frameDec c) (hm : RxMove c s t) :
    SoundState t := by
  have hrx := rxOk_of_sound h ha
  have hno : s.act.isFrameDec ≠ false := by simp [ha, Activity.isFrameDec]
  have hN := rxN_le s
  have hid (hr : s.rxs ≠ .done) {p : Prop} (hi : s.idOk = true) : p := absurd (h.idQuiet hi) hr
  have hcnt : (if s.rxcnt ≤ 1 then 1 else s.rxcnt - 1) ≤ 255 := by
    have := h.rxcntLe
    split <;> omega
  cases hm with
  | started hr =>
    exact { h with
      fbufWf := Memory.write_wf (a := 0) (b := 0x01#8) h.fbufWf
      rxcntLe := Nat.le_of_ble_eq_true rfl
      idQuiet := hid (by simp [hr]), rxQuiet := fun hf => absurd hf hno
      ctl := ctlOk_frameDec ha
        ⟨Nat.le_add_left 1 2, Nat.le_refl 3, covers_write_at (covers_zero _) (by decide) rfl _⟩ }
  | busy n => exact { h with }
  | len b hr hcnt =>
    exact { h with
      rxcntLe := Nat.le_of_ble_eq_true rfl
      ctl := ctlOk_frameDec ha (by
        simp only [rxOk, hr]; exact ⟨Nat.le_succ 1, Nat.le_succ 2, covers_of_hdr hrx hr⟩) }
  | id b hr hcnt =>
    exact { h with
      rxcntLe := Nat.le_of_ble_eq_true rfl
      ctl := ctlOk_frameDec ha (by
        simp only [rxOk, hr]; exact ⟨Nat.le_refl 1, Nat.le_add_left 1 2, covers_of_hdr hrx hr⟩) }
  | num b hr hlen =>
    have hzero : rxN s - rxN s = 0 := Nat.sub_self _
    exact { h with
      fbufWf := Memory.writeBytes_wf h.fbufWf 1 [s.rxlen, s.rxid, b]
      rxcntLe := hN
      idQuiet := hid (by simp [hr]), rxQuiet := fun hf => absurd hf hno
      ctl := ctlOk_frameDec ha ⟨hlen, Nat.le_refl (rxN s), hzero.symm ▸ covers_zero s.pbuf,
        congrArg (4 + ·) hzero ▸ covers_header (covers_of_hdr hrx hr) s.rxlen s.rxid b⟩ }
  | payload b hr hcnt =>
    exact { h with
      pbufWf := Memory.write_wf (a := rxN s - s.rxcnt) (b := b) h.pbufWf
      fbufWf := Memory.write_wf (a := 4 + (rxN s - s.rxcnt)) (b := b) h.fbufWf
      rxcntLe := Nat.le_trans (Nat.sub_le _ _) h.rxcntLe
      payloadCovers := Memory.covers_write h.payloadCovers (rxN s - s.rxcnt) b
      ctl := ctlOk_frameDec ha (rxOk_of_payloadByte hrx hr hcnt rfl) }
  | payloadEnd hr hcnt =>
    have hnext := rxOk_of_payloadEnd hrx hr hcnt rfl
    simp only [rxOk, hr, hcnt, Nat.sub_zero] at hrx
    obtain ⟨-, -, hp, -⟩ := hrx
    exact { h with
      rxcntLe := Nat.le_of_ble_eq_true rfl
      plenLe := Nat.le_trans hN (show 255 ≤ 1024 by decide)
      payloadCovers := hp
      idQuiet := hid (by simp [hr]), rxQuiet := fun hf => absurd hf hno
      ctl := ctlOk_frameDec ha hnext }
  | stmark hr =>
    exact { h with
      fbufWf := Memory.write_wf (a := 4 + rxN s) (b := 0x04#8) h.fbufWf
      rxcntLe := Nat.le_of_ble_eq_true rfl
      idQuiet := hid (by simp [hr]), rxQuiet := fun hf => absurd hf hno
      ctl := ctlOk_frameDec ha (rxOk_of_stmark hrx hr rfl) }
  | status b hr =>
    exact { h with
      fbufWf := Memory.write_wf (a := 5 + rxN s + (6 - s.rxcnt)) (b := b) h.fbufWf
      rxcntLe := hcnt
      idQuiet := hid (by simp [hr]), rxQuiet := fun hf => absurd hf hno
      ctl := ctlOk_frameDec ha (rxOk_of_statusByteIn hrx hr rfl) }
  | pterm hr =>
    exact { h with
      fbufWf := Memory.write_wf (a := rxQ s) (b := 0x05#8) h.fbufWf
      rxcntLe := Nat.le_of_ble_eq_true rfl
      idQuiet := hid (by simp [hr]), rxQuiet := fun hf => absurd hf hno
      ctl := ctlOk_frameDec ha (rxOk_of_pterm hrx hr rfl) }
  | bcc b hr =>
    exact { h with
      fbufWf := Memory.write_wf (a := rxQ s + 1 + (4 - s.rxcnt)) (b := b) h.fbufWf
      rxcntLe := hcnt
      idQuiet := hid (by simp [hr]), rxQuiet := fun hf => absurd hf hno
      ctl := ctlOk_frameDec ha (rxOk_of_bccByte hrx hr rfl) }
  | fterm hr =>
    exact { h with
      fbufWf := Memory.write_wf (a := rxQ s + 5) (b := 0x03#8) h.fbufWf
      rxcntLe := Nat.zero_le _
      flenLe := Nat.le_of_lt (rxQ_lt s)
      idQuiet := hid (by simp [hr]), rxQuiet := fun hf => absurd hf hno
      ctl := ctlOk_frameDec ha (rxOk_of_fterm hrx hr rfl) }
  | checked hr =>
    simp only [rxOk, hr] at hrx
    exact { h with idQuiet := fun _ => rfl, rxQuiet := fun hf => absurd hf hno, ctl := ctlOk_frameDec ha hrx }
  | accepted hr hc =>
    have hses : s.ses = .awaitingResponse := by simpa only [sesOk, ha, hc] using h.ses
    exact { h with idQuiet := fun _ => hr, rxQuiet := fun _ => .inr (.inl hr), ctl := trivial, ses := hses }
  | delivered r hr hc =>
    have hses : restingSes s.ses := restingSes_of_not_inCall h.ses (by rw [ha]; exact hc)
    exact { h with idQuiet := fun _ => hr, rxQuiet := fun _ => .inr (.inl hr), ctl := trivial, ses := hses }
  | error e n k hk =>
    refine Raisable.sound ?_ e
    exact { raisable_of_sound h with rxcntLe := Nat.le_trans hk h.rxcntLe }

theorem sound_of_stepMove (h : SoundState s) (hm : StepMove s t) : SoundState t := by
  cases hm with
  | wait => exact h
  | refused rest => exact { h with }
  | write rest ha h' =>
    refine sound_of_writeMove ?_ h'
    exact { h with }
  | reset e rest ha hp =>
    refine sound_applyReset ?_
    exact { h with }
  | request o rest ha h' =>
    refine sound_of_hostMove ?_ (by exact ha) h'
    exact { h with }
  | encToken ha hk h' => exact sound_of_encMove h ha hk h'
  | encEnd ha h' => exact sound_of_encEnd h ha h'
  | decToken ha hk h' => exact sound_of_decMove h ha hk h'
  | @escape t c vc ha h' =>
    have hctl : s.pc ≤ s.plen ∧ s.tc < s.tmpl.length := by simpa only [ctlOk, ha] using h.ctl
    exact sound_of_fieldMove h (.inr ⟨vc, ha⟩) hctl.1 hctl.2 h'
  | decEnd ha h' => exact sound_of_decEnd h ha h'
  | receive ha h' => exact sound_of_rxMove h ha h'
  | receiveByte n ha hread hx h' =>
    refine sound_of_rxMove ?_ (by exact ha) h'
    exact { h with }
  | call h' => exact sound_of_callMove h h'

end

/-- Settles O59: every move of a step keeps the invariant. -/
theorem stepKeepsSoundness : Obligations.StepKeepsSoundness := fun _ _ h hstep =>
  sound_of_stepMove h (stepMove_of_step hstep)

end Sys2Proof.Machine
end

section
/-! Safety: what the invariant says is written is all that a step reads (spec/10_state.md section 9). -/

namespace Sys2Proof.Machine

open Safety

/-- An outcome that is no fault. -/
def Safe (o : Out) : Prop := ∀ f, o ≠ .fault f

theorem safe_next (t : State) : Safe (.next t) := nofun

theorem safe_refused (r : Refusal) : Safe (.refused r) := nofun

theorem safe_raise (e : Err) (s : State) : Safe (raise e s) := nofun

theorem safe_ite {p : Prop} [Decidable p] {o o' : Out} (h : Safe o) (h' : Safe o') : Safe (if p then o else o') := by
  split
  · exact h
  · exact h'

section
variable {s : State} {n : Nat} {k : List Byte → Out}

/-- A read of written bytes does not fault. -/
theorem safe_withPbuf (h : Memory.covers s.pbuf n) (hk : ∀ p, Safe (k p)) : Safe (withPbuf n s k) := by
  obtain ⟨p, hp⟩ := Memory.covers_readBytes h (Nat.le_refl n)
  exact withPbuf_eq hp k ▸ hk p

theorem safe_withFbuf (h : Memory.covers s.fbuf n) (hk : ∀ f, Safe (k f)) : Safe (withFbuf n s k) := by
  obtain ⟨f, hf⟩ := Memory.covers_readBytes h (Nat.le_refl n)
  exact withFbuf_eq hf k ▸ hk f

theorem safe_emit (bs : List Byte) (s : State) : Safe (emit bs s) := safe_ite (safe_raise _ _) (safe_next _)

theorem safe_feTyped (code : FieldCode) (f : SlotVal → Option (List Byte)) (s : State) : Safe (feTyped code f s) := by
  unfold feTyped
  split
  · exact safe_raise _ _
  · refine safe_ite ?_ (safe_raise _ _)
    split
    · exact safe_emit _ _
    · exact safe_raise _ _

theorem safe_putSlot (v : SlotVal) (k : Kind) (s : State) : Safe (putSlot v k s) := safe_next _

theorem safe_finishField (vc : VarCode) (u : List Byte) (s : State) : Safe (finishField vc u s) := by
  unfold finishField
  split
  · exact safe_raise _ _
  · split
    · exact safe_putSlot _ _ _
    · exact safe_raise _ _

theorem safe_resumeField (vc : VarCode) (raw : List Byte) (j : Nat) (u : List Byte) (s : State) :
    Safe (resumeField vc raw j u s) :=
  safe_ite (safe_finishField _ _ _) (safe_next _)

theorem safe_fieldW (raw : List Byte) (k : Kind) (s : State) : Safe (fieldW raw k s) := by
  unfold fieldW
  split
  · exact safe_putSlot _ _ _
  · exact safe_raise _ _

theorem safe_fieldDate (code : FieldCode) (layout : List DatePos) (secs : List Byte → Nat) (raw : List Byte) (k : Kind)
    (s : State) : Safe (fieldDate code layout secs raw k s) := by
  unfold fieldDate
  split
  · exact safe_raise _ _
  · exact safe_putSlot _ _ _

theorem safe_fdTyped {code : FieldCode} {f : List Byte → Kind → State → Out} (h : Memory.covers s.pbuf s.plen)
    (hf : ∀ raw k t, Safe (f raw k t)) : Safe (fdTyped code f s) := by
  refine safe_withPbuf h fun p => ?_
  split
  · exact safe_raise _ _
  · split
    · exact safe_raise _ _
    · exact safe_ite (hf _ _ _) (safe_raise _ _)

theorem safe_fdLit (b : Byte) (h : Memory.covers s.pbuf s.plen) : Safe (exec (.fdLit b) s) := by
  refine safe_withPbuf h fun p => ?_
  split
  · exact safe_raise _ _
  · exact safe_ite (safe_next _) (safe_raise _ _)

theorem safe_esc (s : State) : Safe (exec .esc s) := by
  change Safe (execEsc s)
  unfold execEsc
  split
  · exact safe_raise _ _
  · exact safe_ite (safe_raise _ _) (safe_resumeField _ _ _ _ _)

theorem safe_statusQuery (f : DeviceStatus → Bool) (s : State) : Safe (statusQuery f s) :=
  safe_ite (safe_next _) (safe_raise _ _)

theorem safe_frameEncode {id num : Byte} {st : Option DeviceStatus} {k : List Byte → State → Out}
    (h : Memory.covers s.pbuf s.plen) (hk : ∀ f t, Safe (k f t)) : Safe (frameEncode id num st s k) :=
  safe_ite (safe_raise _ _) (safe_withPbuf h fun _ => hk _ _)

theorem safe_startFieldEnc (c : Bool) (t : List Byte) (s : State) : Safe (startFieldEnc c t s) := by
  unfold startFieldEnc
  split
  · exact safe_raise _ _
  · exact safe_next _

theorem safe_startFieldDec (c : Bool) (t : List Byte) (s : State) : Safe (startFieldDec c t s) := by
  unfold startFieldDec
  split
  · exact safe_raise _ _
  · exact safe_next _

theorem safe_sesCall (s : State) : Safe (exec .sesCall s) := by
  change Safe (execSesCall s)
  unfold execSesCall
  split
  · exact safe_raise _ _
  · exact safe_next _

theorem safe_stFlag (k : BitVec 5) (s : State) : Safe (exec (.stFlag k) s) := by
  change Safe (execStFlag k s)
  unfold execStFlag
  split
  · exact safe_statusQuery _ _
  · exact safe_next _

theorem safe_flagRow {i : Instr} (hi : i ∈ flagRows) (s : State) : Safe (exec i s) := by
  obtain ⟨k, hk⟩ := List.mem_iff_getElem?.1 hi
  obtain ⟨f, hf⟩ := getElem?_allFlags_of_lt (List.getElem?_eq_some_iff.1 hk).1
  rw [exec_flagRow hk hf]
  exact safe_statusQuery _ _

theorem safe_hosts {i : Instr} (hi : hosts i) (h : Memory.covers s.pbuf s.plen) : Safe (exec i s) := by
  obtain hi | ⟨k, rfl⟩ | ⟨e, rfl⟩ | hi | hi := hi
  · exact safe_flagRow hi s
  · exact safe_stFlag k s
  · exact safe_next _
  · rw [exec_of_refusedRequest (refusedRequest_of_illegal_selector hi)]
    exact safe_next _
  · simp only [List.mem_cons, List.not_mem_nil, or_false] at hi
    obtain rfl | rfl | rfl | rfl | rfl | rfl | rfl | rfl | rfl | rfl := hi
    · exact safe_next _
    · exact safe_next _
    · exact safe_ite (safe_next _) (safe_raise _ _)
    · exact safe_startFieldEnc _ _ _
    · exact safe_startFieldDec _ _ _
    · exact exec_frmEncHost s ▸ safe_frameEncode (s := startOp s) h fun _ _ => safe_next _
    · exact exec_frmEncDevice s ▸ safe_frameEncode (s := startOp s) h fun _ _ => safe_next _
    · exact safe_statusQuery _ _
    · exact safe_statusQuery _ _
    · exact safe_sesCall s

theorem safe_encodes {i : Instr} (hi : encodes i) (s : State) : Safe (exec i s) := by
  obtain hi | ⟨k, rfl⟩ := hi
  · simp only [List.mem_cons, List.not_mem_nil, or_false] at hi
    obtain rfl | rfl | rfl | rfl | rfl := hi
    all_goals exact safe_feTyped _ _ s
  · exact safe_emit _ _

theorem safe_decodes {i : Instr} (hi : decodes i) (h : Memory.covers s.pbuf s.plen) : Safe (exec i s) := by
  obtain hi | ⟨k, rfl⟩ := hi
  · simp only [List.mem_cons, List.not_mem_nil, or_false] at hi
    obtain rfl | rfl | rfl | rfl | rfl | rfl := hi
    · exact safe_fdTyped h safe_fieldW
    · exact exec_fdB s ▸ safe_fdTyped h fun _ _ _ => safe_resumeField _ _ _ _ _
    · exact exec_fdT s ▸ safe_fdTyped h fun _ _ _ => safe_resumeField _ _ _ _ _
    · exact safe_fdTyped h (safe_fieldDate _ _ _)
    · exact safe_fdTyped h (safe_fieldDate _ _ _)
    · exact safe_esc s
  · exact safe_fdLit k h

theorem safe_rxBusy (s : State) : Safe (exec .rxBusy s) := by
  change Safe (execRxBusy s)
  unfold execRxBusy
  split
  · exact safe_next _
  · exact safe_ite (safe_raise _ _) (safe_next _)

theorem safe_receives {i : Instr} (hi : receives i) (s : State) : Safe (exec i s) := by
  obtain hi | ⟨b, rfl⟩ := hi
  · simp only [List.mem_cons, List.not_mem_nil, or_false] at hi
    obtain rfl | rfl | rfl | rfl | rfl | rfl := hi
    · exact safe_next _
    · exact safe_raise _ _
    · exact safe_rxBusy s
    · exact safe_next _
    · exact safe_next _
    · exact safe_next _
  · exact safe_raise _ _

/-- No instruction reads anything but the payload. -/
theorem safe_exec (i : Instr) (h : Memory.covers s.pbuf s.plen) : Safe (exec i s) := by
  obtain hi | hi | hi | hi | rfl := instr_cases i
  · exact safe_hosts hi h
  · exact safe_encodes hi s
  · exact safe_decodes hi h
  · exact safe_receives hi s
  · exact safe_next _

theorem safe_hdrByte (b : Byte) (s : State) : Safe (hdrByte b s) :=
  safe_ite (safe_next _) (safe_ite (safe_next _) (safe_ite (safe_raise _ _) (safe_next _)))

theorem safe_structural (want : Byte) (pos : Nat) (b : Byte) (h : Memory.covers s.pbuf s.plen) :
    Safe (structural want pos b s).out := by
  unfold structural
  split
  · split
    · exact safe_exec _ h
    · exact safe_raise _ _
  · exact safe_raise _ _

theorem safe_rxByte (b : Byte) (hread : readsChannel s) (h : Memory.covers s.pbuf s.plen) :
    Safe (rxByte b s).out := by
  simp only [readsChannel, List.mem_cons, List.not_mem_nil, or_false] at hread
  obtain (hr | hr | hr | hr | hr | hr | hr) | ⟨hr, -⟩ := hread
  all_goals simp only [rxByte, hr]
  · exact safe_exec _ h
  · exact safe_hdrByte b s
  · exact safe_structural _ _ b h
  · exact safe_next _
  · exact safe_structural _ _ b h
  · exact safe_next _
  · exact safe_structural _ _ b h
  · exact safe_next _

theorem safe_rxRead (hread : readsChannel s) (h : Memory.covers s.pbuf s.plen) : Safe (rxRead s).out := by
  obtain ⟨-, hx⟩ | ⟨rest, -, hx⟩ | ⟨b, rest, -, hx⟩ := chanRead_cases s
  · simp only [rxRead, hx]
    exact safe_next s
  · simp only [rxRead, hx]
    exact safe_raise _ _
  · simp only [rxRead, hx]
    exact safe_rxByte (s := { s with rx := rest, rxUsed := s.rxUsed + 1 }) b hread h

theorem safe_checkFrame (hp : Memory.covers s.pbuf (rxN s)) (hf : Memory.covers s.fbuf 4) : Safe (checkFrame s) :=
  safe_withFbuf hf fun _ => safe_withPbuf hp fun _ => safe_ite (safe_next _) (safe_raise _ _)

theorem safe_finishFrameDec (c : Bool) (h : Memory.covers s.pbuf s.plen) : Safe (finishFrameDec c s) :=
  safe_ite (safe_next _) (safe_withPbuf h fun _ => safe_next _)

/-- `FRM.DEC` stands in one of its states, and in CHECK has the header and the payload. -/
theorem safe_rxStep (c : Bool) (hrx : rxOk s) (h : Memory.covers s.pbuf s.plen) : Safe (rxStep c s).out := by
  by_cases hread : readsChannel s
  · rw [rxStep_of_readsChannel hread]
    exact safe_rxRead hread h
  · unfold rxStep
    cases hr : s.rxs
    case payload =>
      have hcnt : s.rxcnt = 0 := Nat.eq_zero_of_not_pos fun hpos => hread (.inr ⟨hr, hpos⟩)
      simp only [hcnt, if_true]
      exact safe_next _
    case check =>
      simp only [rxOk, hr] at hrx
      obtain ⟨-, -, hp, hflen, hf⟩ := hrx
      exact safe_checkFrame hp (Memory.covers_mono hf (hflen ▸ Nat.le_add_left_of_le (by decide)))
    case done => exact safe_finishFrameDec c h
    case idle => simp only [rxOk, hr] at hrx
    case fail => simp only [rxOk, hr] at hrx
    all_goals exact absurd (.inl (by simp [hr])) hread

theorem safe_escapeStep (vc : VarCode) (s : State) : Safe (escapeStep vc s).out := by
  unfold escapeStep
  split
  · split
    · exact safe_esc s
    · exact safe_resumeField _ _ _ _ _
  · exact safe_resumeField _ _ _ _ _

theorem safe_finishFieldEnc (c : Bool) (s : State) : Safe (finishFieldEnc c s) :=
  safe_ite (safe_ite (safe_raise _ _) (safe_next _)) (safe_next _)

theorem safe_finishFieldDec (c : Bool) (s : State) : Safe (finishFieldDec c s) :=
  safe_ite (safe_raise _ _) (safe_ite (safe_next _) (safe_next _))

theorem safe_callFrame (h : Memory.covers s.pbuf s.plen) : Safe (callFrame s) := by
  unfold callFrame
  exact safe_frameEncode h fun _ _ => safe_next _

theorem safe_callStatus (s : State) : Safe (callStatus s) := by
  refine safe_ite ?_ (safe_ite (safe_raise _ _) (safe_startFieldDec _ _ _))
  split
  · exact safe_ite (safe_raise _ _) (safe_next _)
  · exact safe_next _

/-- The operation in progress: each stage reads what the invariant keeps written for it. -/
theorem safe_running (h : SoundState s) : Safe (running s).out := by
  have hp := h.payloadCovers
  have hctl := h.ctl
  cases ha : s.act <;> simp only [running, ctlOk, ha] at hctl ⊢
  case idle => exact safe_next s
  case fieldEnc c =>
    split
    · exact safe_exec _ hp
    · exact safe_finishFieldEnc c s
  case fieldDec c =>
    split
    · exact safe_exec _ hp
    · exact safe_finishFieldDec c s
  case unescape c vc => exact safe_escapeStep vc s
  case frameDec c => exact safe_rxStep c hctl hp
  case callRound => exact safe_next _
  case callEncode => exact safe_startFieldEnc _ _ s
  case callNextId => exact safe_exec .sesNextId hp
  case callFrame => exact safe_callFrame hp
  case callWrite => exact safe_withFbuf hctl fun _ => safe_next _
  case callStatus => exact safe_callStatus s

theorem safe_hostWrite (a : HostAct) (s : State) : Safe (hostWrite a s) := by
  cases a with
  | start r => exact safe_next _
  | writeCoverage c => exact safe_next _
  | writeBusyLimit l => exact safe_next _
  | writeRetryLimit l => exact safe_next _
  | writeRetryPred p => exact safe_next _
  | reset => exact safe_next _
  | buildTable l => exact safe_ite (safe_refused _) (safe_next _)
  | _ => exact safe_ite (safe_next _) (safe_refused _)

theorem safe_earlyAct (a : HostAct) (s : State) : Safe (earlyAct a s) := by
  cases a with
  | start r => exact safe_next _
  | _ => exact safe_refused _

/-- What the host starts is an instruction, and it reads the payload at most. -/
theorem safe_hostAct {e : Bool} {a : HostAct} {rest : List PortEvent} (h : SoundState s) (ha : s.act = .idle)
    (hp : s.port = ⟨e, a⟩ :: rest) : Safe (step s) := by
  by_cases hstart : ∃ r, a = .start r
  · obtain ⟨r, rfl⟩ := hstart
    obtain ⟨i, hd, -⟩ := portRequestsDecodeAndIllegalOnesAreNamed r.op r.expst r.flag
    rw [step_of_run (fetch_of_idle_request ha hp hd), latchOperands]
    split
    · exact safe_exec i (s := { s with port := rest }) h.payloadCovers
    · exact safe_exec i (s := { s with port := rest, opnd := r.operands }) h.payloadCovers
  · rw [step_of_hostWrite ha hp fun r hr => hstart ⟨r, hr⟩]
    exact safe_hostWrite _ _

end

/-- Settles O60: by who makes the step, the host or the operation in progress. -/
theorem soundStatesNeverFault : Obligations.SoundStatesNeverFault := by
  intro s h
  change Safe (step s)
  by_cases ha : s.act = .idle
  · cases hp : s.port with
    | nil =>
      rw [step_eq_out, fetch, hp]
      exact safe_running h
    | cons e rest => exact safe_hostAct h ha hp
  · by_cases hw : hostWaits s = true
    · rw [step_eq_out, fetch_of_waits hw ha]
      exact safe_running h
    · obtain ⟨a, rest, hp⟩ := exists_early_of_not_waits hw
      rw [step_of_done (fetch_of_early ha hp)]
      exact safe_earlyAct _ _

end Sys2Proof.Machine
end
